-- ==== Sys2Proof/Word.lean ====
section
/-! DEFINITION. The word types of the block (00_scope.md section 4): bytes, 16-bit and 17-bit values,
pixels and frames. Nothing here is signed: the block has no signed quantity. -/

namespace Sys2Proof

/-- A byte, `u8`. -/
abbrev Byte := BitVec 8

/-- A 16-bit accelerometer value, `u16`; its sign is not interpreted (10_state.md R26). -/
abbrev U16 := BitVec 16

/-- The 17-bit value of the number display, `u17` (10_state.md R23). -/
abbrev U17 := BitVec 17

/-- One pixel: its R, G, B components in channel order (20_memory.md R46). -/
structure Pixel where
  r : Byte
  g : Byte
  b : Byte
  deriving DecidableEq, Repr, Inhabited

/-- A PixelFrame: its rows from y = 0, in each row its pixels from x = 0 (40_encoder.md R90). -/
abbrev Frame := List (List Pixel)

end Sys2Proof
end

