-- ==== Sys2Proof/Syntax.lean ====
section
/-! DEFINITION. The wire units, one constructor per row of spec/opcode_table.json
(30_encoding.md R62, R63, R74 to R78, R81, R83). An instruction of this block is a wire unit (92 D1). -/

namespace Sys2Proof

/-- A unit of one of the two byte streams, or the internal PUTCOLOR. -/
inductive Instr where
  /-- `COLOR b`: one colour component `b`, `b != 0xFF` (R62 format C). -/
  | color (b : Byte)
  /-- `LITFF`: the doubled escape, one component 0xFF (R66). -/
  | litff
  /-- `SYNC`: SyncCoords (R136). -/
  | sync
  /-- `GETBR`: GetBrightness (R137). -/
  | getbr
  /-- `SETBR a`: SetBrightness (R71, R138). -/
  | setbr (a : Byte)
  /-- `GETACS`: GetAccelState (R139). -/
  | getacs
  /-- `SETACS a`: SetAccelState (R72, R140). -/
  | setacs (a : Byte)
  /-- `GETACV`: GetAccelValues (R141). -/
  | getacv
  /-- `SETNUM b0, b1, b2`: SetNumberDisplay, bytes in the order sent (R73, R142). -/
  | setnum (b0 b1 b2 : Byte)
  /-- `RSVD t`: a reserved tag after an escape, `0x07 <= t <= 0xFE` (R65). -/
  | rsvd (t : Byte)
  /-- `PUTCOLOR`: internal, no encoding; operands `col[0]`, `col[1]`, `col[2]` (R83, R133). -/
  | putcolor (r g b : Byte)
  /-- `READY` (device): the Ready byte (R74). -/
  | ready
  /-- `RBR v` (device): the GetBrightness response (R75). -/
  | rbr (v : Byte)
  /-- `RACS e` (device): the GetAccelState response (R76). -/
  | racs (e : Bool)
  /-- `RACV x, y, z` (device): the GetAccelValues response (R77). -/
  | racv (x y z : U16)
  /-- `BTN i, p` (device): a button event (R78). -/
  | btn (i : Fin 6) (p : Bool)
  deriving DecidableEq, Repr

end Sys2Proof
end

