-- ==== Sys2Proof/WellFormed.lean ====
section
/-! DEFINITION. Which terms of `Instr` are units: the constraints of spec/opcode_table.json that the
types do not carry. A button identifier is in 0..5 by its type (R78), so two checks are left. -/

namespace Sys2Proof

/-- The constraint of each row: `b != 0xFF` for COLOR, `0x07 <= t <= 0xFE` for RSVD (30_encoding.md R62). -/
def Instr.wellFormed : Instr → Bool
  | .color b => decide (b ≠ 0xFF#8)
  | .rsvd t => decide (7 ≤ t.toNat ∧ t.toNat ≤ 0xFE)
  | .litff | .sync | .getbr | .setbr _ | .getacs | .setacs _ | .getacv | .setnum _ _ _ => true
  | .putcolor _ _ _ => true
  | .ready | .rbr _ | .racs _ | .racv _ _ _ | .btn _ _ => true

end Sys2Proof
end

