-- ==== Sys2Proof/Decode.lean ====
section
/-! DEFINITION. The wire encoding of 30_encoding.md in both directions: the two special bytes, the
byte and bit helpers, the decoder of each stream, the reading of a word of spec/opcode_table.json,
and after them the encoder. -/

namespace Sys2Proof

/-- `ESC` (R60). -/
def escByte : Byte := 0xFF#8

/-- `READY` (R61). -/
def readyByte : Byte := 0x78#8

/-- `v[7:0]` of a 16-bit value. -/
def lowByte (v : U16) : Byte := v.extractLsb' 0 8

/-- `v[15:8]` of a 16-bit value. -/
def highByte (v : U16) : Byte := v.extractLsb' 8 8

/-- A 16-bit value from its bytes, low byte first on the wire (20_memory.md R45). -/
def halfOf (lo hi : Byte) : U16 := hi ++ lo

/-- `recognized(t)` (R64). -/
def recognized (t : Byte) : Bool := decide (t.toNat ≤ 6)

/-- `arg_count(t)` of a recognized tag (R64). -/
def argCount (t : Byte) : Nat :=
  if t = 0x02#8 ∨ t = 0x04#8 then 1 else if t = 0x06#8 then 3 else 0

/-- The header byte of a GetAccelState response, `0xE0 | e` (R76). -/
def accelHeader (e : Bool) : Byte := 0xE0#8 ||| (if e then 1#8 else 0#8)

/-- A button-event byte, `0xF0 | (i << 1) | p` (R78). -/
def buttonByte (i : Fin 6) (p : Bool) : Byte :=
  0xF0#8 ||| (BitVec.ofNat 8 i.val <<< 1) ||| (if p then 1#8 else 0#8)

/-- Why bytes are no unit. -/
inductive DecodeError where
  /-- No byte at all. -/
  | empty
  /-- The bytes end inside a unit. -/
  | truncated
  /-- Device stream: no unit begins with this byte (R80). -/
  | notAUnit
  /-- Device stream: a response whose last byte is not Ready (R75 to R77). -/
  | noReady
  deriving DecidableEq, Repr

/-- One unit and the bytes after it, or why there is none. -/
abbrev Decoded := Except DecodeError (Instr × List Byte)

/-- The unit that begins with an escape, from the byte after it (R62, R65, R66, R68). -/
def decodeEscaped : List Byte → Decoded
  | [] => .error .truncated
  | t :: rest =>
    if t = 0xFF#8 then .ok (.litff, rest)
    else if t = 0x00#8 then .ok (.sync, rest)
    else if t = 0x01#8 then .ok (.getbr, rest)
    else if t = 0x02#8 then
      match rest with
      | a :: r => .ok (.setbr a, r)
      | [] => .error .truncated
    else if t = 0x03#8 then .ok (.getacs, rest)
    else if t = 0x04#8 then
      match rest with
      | a :: r => .ok (.setacs a, r)
      | [] => .error .truncated
    else if t = 0x05#8 then .ok (.getacv, rest)
    else if t = 0x06#8 then
      match rest with
      | b0 :: b1 :: b2 :: r => .ok (.setnum b0 b1 b2, r)
      | _ => .error .truncated
    else .ok (.rsvd t, rest)

/-- The decoder of the host-to-device stream at a unit boundary with no command in flight (R68). No
byte sequence is illegal there (R65): only one that ends inside a unit is refused. -/
def decode : List Byte → Decoded
  | [] => .error .empty
  | b :: rest => if b = escByte then decodeEscaped rest else .ok (.color b, rest)

/-- The decoder of the device-to-host stream at a unit boundary (R74 to R80). -/
def decodeDevice : List Byte → Decoded
  | [] => .error .empty
  | h :: rest =>
    if h = 0x78#8 then .ok (.ready, rest)
    else if h = 0x01#8 then
      match rest with
      | v :: e :: r => if e = readyByte then .ok (.rbr v, r) else .error .noReady
      | _ => .error .truncated
    else if h = 0xE0#8 ∨ h = 0xE1#8 then
      match rest with
      | e :: r => if e = readyByte then .ok (.racs (decide (h = 0xE1#8)), r) else .error .noReady
      | _ => .error .truncated
    else if h = 0x05#8 then
      match rest with
      | xl :: xh :: yl :: yh :: zl :: zh :: e :: r =>
        if e = readyByte then .ok (.racv (halfOf xl xh) (halfOf yl yh) (halfOf zl zh), r) else .error .noReady
      | _ => .error .truncated
    else if hb : 0xF0 ≤ h.toNat ∧ h.toNat ≤ 0xFB then
      .ok (.btn ⟨(h.toNat - 0xF0) / 2, by omega⟩ (decide (h.toNat % 2 = 1)), rest)
    else .error .notAUnit

/-- The bytes of a word of spec/opcode_table.json: the unit read as one number, the first byte sent
most significant (30_encoding.md R83, conventions). Entry 5. -/
def tableBytes (nbits w : Nat) : List Byte :=
  (List.range (nbits / 8)).map fun k => BitVec.ofNat 8 (w >>> (8 * (nbits / 8 - 1 - k)))

/-- The instruction a word of the table stands for: a word that is exactly a device unit is that
unit; any other is read by the host-to-device decoder with zero bytes after it; the row of no bytes
is PUTCOLOR. Entry 5. -/
def decodeTableWord (nbits w : Nat) : Option Instr :=
  if nbits = 0 then some (.putcolor 0#8 0#8 0#8)
  else
    match decodeDevice (tableBytes nbits w) with
    | .ok (i, []) => some i
    | _ =>
      match decode (tableBytes nbits w ++ List.replicate 4 0#8) with
      | .ok (i, _) => some i
      | .error _ => none

/-- Which stream a unit belongs to (R62, R74 to R78, R83). -/
inductive Direction where
  | hostToDevice
  | deviceToHost
  | internal
  deriving DecidableEq, Repr

/-- The stream of each row of the table. -/
def Instr.direction : Instr → Direction
  | .color _ | .litff | .sync | .getbr | .setbr _ | .getacs | .setacs _ | .getacv | .setnum _ _ _
  | .rsvd _ => .hostToDevice
  | .putcolor _ _ _ => .internal
  | .ready | .rbr _ | .racs _ | .racv _ _ _ | .btn _ _ => .deviceToHost

/-- The bytes of each unit in the order sent (R81); PUTCOLOR has none (R83). -/
def encode : Instr → List Byte
  | .color b => [b]
  | .litff => [0xFF#8, 0xFF#8]
  | .sync => [0xFF#8, 0x00#8]
  | .getbr => [0xFF#8, 0x01#8]
  | .setbr a => [0xFF#8, 0x02#8, a]
  | .getacs => [0xFF#8, 0x03#8]
  | .setacs a => [0xFF#8, 0x04#8, a]
  | .getacv => [0xFF#8, 0x05#8]
  | .setnum b0 b1 b2 => [0xFF#8, 0x06#8, b0, b1, b2]
  | .rsvd t => [0xFF#8, t]
  | .putcolor _ _ _ => []
  | .ready => [readyByte]
  | .rbr v => [0x01#8, v, readyByte]
  | .racs e => [accelHeader e, readyByte]
  | .racv x y z => [0x05#8, lowByte x, highByte x, lowByte y, highByte y, lowByte z, highByte z, readyByte]
  | .btn i p => [buttonByte i p]

/-- The pseudo-unit `COMP c` (R82). -/
def compUnit (c : Byte) : Instr := if c ≠ escByte then .color c else .litff

/-- The pseudo-unit `PIXEL r, g, b` (R82). -/
def pixelUnits (p : Pixel) : List Instr := [compUnit p.r, compUnit p.g, compUnit p.b]

/-- The pseudo-unit `FRAME F`: SYNC, then PIXEL of every pixel in row-major order (R82). -/
def frameUnits (f : Frame) : List Instr := .sync :: f.flatMap fun row => row.flatMap pixelUnits

/-- The bytes of a sequence of units: a stream is the concatenation of its units (R62). -/
def encodeUnits (us : List Instr) : List Byte := us.flatMap encode

/-- The pseudo-unit `SETNUMV v` (R82). -/
def setnumvUnit (v : U17) : Instr :=
  .setnum (v.extractLsb' 0 8) (v.extractLsb' 8 8) ((v.extractLsb' 16 1).setWidth 8)

/-- How many bytes the unit at the head of the host-to-device stream has, found from at most two of
them; none where the deciding byte is missing (R68). -/
def unitLength : List Byte → Option Nat
  | [] => none
  | b :: rest =>
    if b ≠ escByte then some 1
    else
      match rest with
      | [] => none
      | t :: _ => if t = escByte then some 2 else if recognized t then some (2 + argCount t) else some 2

end Sys2Proof
end

