-- ==== Sys2Proof/Config.lean ====
section
/-! DEFINITION. The implementation parameters of 00_scope.md section 3, and the free values of the
model. The parameters that are plain data are the structure `Config`, held unchanged in State (R30);
what the spec leaves open and is no plain datum is a constant with no body, so that nothing can be
proved of its values. -/

namespace Sys2Proof

/-- The parameters a model takes as configuration (00_scope.md section 3). -/
structure Config where
  /-- `FRAME_W` (R3). -/
  frameW : Nat
  /-- `FRAME_H` (R3). -/
  frameH : Nat
  /-- `RQ_CAPACITY` (R4). -/
  rqCapacity : Nat
  /-- `BR_MIN` (R5). -/
  brMin : Byte
  /-- `BR_MAX` (R5). -/
  brMax : Byte
  /-- `BRIGHTNESS_INIT` (R21). -/
  brightnessInit : Byte
  /-- `ACCEL_INIT` (R22). -/
  accelInit : Bool
  /-- `BTN_POLL_INTERVAL` (R7). -/
  btnPollInterval : Nat
  /-- `EXIT_POLL_INTERVAL` (R7). -/
  exitPollInterval : Nat
  /-- `SYNC_RESETS_CIDX` (R111, default true). -/
  syncResetsCidx : Bool
  /-- The parameter `accel_bool` (R72, R140, U3): the argument values other than 0 that it maps to 0.
  The spec's default, `a != 0`, is the empty list. -/
  accelZeros : List Byte
  /-- `HOST_TIMEOUT`, in milliseconds (R8): the host's only, the device has no timeout. A model has no clock
  (R243), so no step reads it: a timeout is the move `hostFail`. Entry 19. -/
  hostTimeout : Nat
  deriving DecidableEq, Repr

/-- The constraints the spec puts on the parameters (R3, R4, R5, R7, R21; U3 for `accel_bool(1) = 1`). -/
def Config.legal (c : Config) : Bool :=
  decide (1 ≤ c.frameW) && decide (1 ≤ c.frameH) && decide (8 ≤ c.rqCapacity)
    && decide (c.brMin.toNat ≤ c.brightnessInit.toNat) && decide (c.brightnessInit.toNat ≤ c.brMax.toNat)
    && decide (1 ≤ c.btnPollInterval) && decide (1 ≤ c.exitPollInterval)
    && !(c.accelZeros.contains 0x01#8)

/-- The parameters the state after reset has: the spec's default frame, its two defaults, and for the
parameters it leaves OPEN the example values of 95_test_vectors.md (intervals: 1; HOST_TIMEOUT: one second, R8).
DESIGN CHOICE, unsafe: entry 6; no statement rests on the open ones. -/
def Config.standard : Config where
  frameW := 10
  frameH := 16
  rqCapacity := 8
  brMin := 10#8
  brMax := 200#8
  brightnessInit := 50#8
  accelInit := false
  btnPollInterval := 1
  exitPollInterval := 1
  syncResetsCidx := true
  accelZeros := []
  hostTimeout := 1000

/-- One move: an agent of 00_scope.md R2 takes one step, with the input the outside world gives it. -/
inductive Move where
  /-- RX: the receive interrupt is taken, if a byte is there (R211). -/
  | rx
  /-- DISP: one main-loop iteration (R130). -/
  | disp
  /-- TXD: the channel-write poller looks once (R164). -/
  | txd
  /-- HOST: writes one byte of its own choosing (R202, R203). -/
  | hostByte (b : Byte)
  /-- HOST: calls `send` with a frame (R195). -/
  | hostSend (f : Frame)
  /-- HOST: `send` writes the next byte of the encoded frame (R196). -/
  | hostWrite
  /-- HOST: reads one byte (R197). -/
  | hostRead
  /-- HOST: a write or read gives an I/O error or a timeout (R198, R199). -/
  | hostFail
  /-- HOST: closes the channel, flushing first (R200). -/
  | hostClose
  /-- ENV: new live button states (R26 b). -/
  | envButtons (live : Vector Bool 6)
  /-- ENV: new accelerometer values (R26 c). -/
  | envAccel (x y z : U16)
  /-- ENV: whether the channel can accept a byte (R26 d). -/
  | envTxReady (r : Bool)
  deriving DecidableEq, Repr, Inhabited

/-- FREE VALUE (R145, D20): the brightness scaling of one component, external, assumed total and
nothing else. Entry 12. -/
opaque Config.scale : Byte → Byte → Byte

/-- FREE VALUE (R30, R51, U19): the n-th move nobody has fixed: any agent, any input. Entry 3. -/
opaque Config.freeMove : Nat → Move

end Sys2Proof
end

