-- ==== Sys2Proof/Machine/State.lean ====
section
/-! DEFINITION. The state of the block and its environment as plain data (10_state.md), the reasons a
step can stop, and the state after reset (10_state.md R33, 70_reset_and_hazards.md R230, R231). -/

namespace Sys2Proof.Machine

/-- The values of the command-tag register (10_state.md R12): the seven wire tags of 30_encoding.md
R63 and the internal PUTCOLOR, which has no byte (92 D3). -/
inductive Tag where
  | sync
  | getbr
  | setbr
  | getacs
  | setacs
  | getacv
  | setnum
  | putcolor
  deriving DecidableEq, Repr

/-- Memory as (address, byte) pairs. Canonical form: addresses strictly rising. An address that is not
listed has no value: nothing has written it, and it may hold anything (93 U5, entry 9). -/
abbrev Memory := List Host.Cell

/-- What `send` returns (45_frame_sender.md R195, R198). -/
inductive SendResult where
  | ok
  | deviceOffline
  deriving DecidableEq, Repr

/-- What the Frame Sender is doing (45_frame_sender.md R195). -/
inductive Sender where
  /-- No `send` has been called. -/
  | idle
  /-- Writing; `rest` is what is still to be written of the encoded frame (R196). -/
  | writing (rest : List Byte)
  /-- All written; reading until the Ready byte (R197). -/
  | reading
  /-- The last `send` has returned. -/
  | finished (r : SendResult)
  deriving DecidableEq, Repr

structure State where
  /-- The parameters; no step changes them (10_state.md R30). -/
  cfg : Config
  /-- Escape pending (R10). -/
  esc : Bool
  /-- Argument bytes still awaited (R11). -/
  argn : Fin 4
  /-- The command-tag register (R12). -/
  tag : Tag
  /-- A complete command awaits the dispatcher (R13). -/
  ready : Bool
  /-- The argument registers (R14). -/
  args : Vector Byte 3
  /-- The colour component index (R15). -/
  cidx : Fin 3
  /-- The pixel-component accumulator (R16). -/
  col : Vector Byte 3
  /-- The Cursor's column (R17). -/
  cx : Nat
  /-- The Cursor's row (R17). -/
  cy : Nat
  /-- The frame buffer by linear address (R18, 20_memory.md R41). -/
  fb : Memory
  /-- The Response Queue, oldest byte first (R19). -/
  rq : List Byte
  /-- The brightness setting (R21). -/
  brightness : Byte
  /-- The accelerometer enable flag (R22). -/
  accelEnabled : Bool
  /-- The value last given to the number display (R23). -/
  numberDisplay : U17
  /-- The ButtonEdgeTable: the state last reported of each button (R24). -/
  btnReported : Vector Bool 6
  /-- The round-robin index (R24). -/
  btnIdx : Fin 6
  /-- Idle iterations since the last poll (R24). -/
  btnCtr : Nat
  /-- Iterations since the last exit test (R24). -/
  exitCtr : Nat
  /-- Command-processing mode (R25). -/
  running : Bool
  /-- A completed frame's Ready is not yet queued (R25). -/
  readyOwed : Bool
  /-- Environment: live pressed state of each button (R26 b). -/
  btnLive : Vector Bool 6
  /-- Environment: accelerometer x (R26 c). -/
  ax : U16
  /-- Environment: accelerometer y (R26 c). -/
  ay : U16
  /-- Environment: accelerometer z (R26 c). -/
  az : U16
  /-- Environment: the channel can accept a byte (R26 d). -/
  txReady : Bool
  /-- Bytes the host wrote and the receiver has not taken (R32). -/
  h2d : List Byte
  /-- Bytes TXD sent and the host has not read (R32). -/
  d2h : List Byte
  /-- Host: the Frame Sender (45_frame_sender.md R195). -/
  sender : Sender
  /-- Host: the channel has not been closed (45_frame_sender.md R200). -/
  channelOpen : Bool
  /-- The model's record: how many times `latch_frame()` has occurred (42_commands.md R146, entry 20). -/
  frames : Nat
  /-- The model's record: what `fb` held at the last `latch_frame()` (R146, entry 20). -/
  shown : Memory
  /-- The model's record: what `persist_settings()` read (44_buttons_and_session.md R185, entry 20). -/
  saved : Option (Byte × Bool)
  /-- The model's own: the moves already fixed, next first (entry 3). -/
  moves : List Move
  /-- The model's own: how many free moves have been drawn (entry 3). -/
  tick : Nat
  deriving DecidableEq, Repr

/-- Why a step can stop. The block itself has no fault (60_exceptions.md R205). -/
inductive Fault where
  /-- Raised by PUTCOLOR when the Cursor is outside the frame. SAFE: the spec says this cannot occur
  (20_memory.md R43), and no state that keeps 10_state.md R28 I3 raises it. Entry 11. -/
  | fbOutOfFrame
  deriving DecidableEq, Repr

/-- Why the model refuses a step. -/
inductive Refusal where
  /-- Raised by an arm of `exec` whose instruction has no meaning yet. SAFE. -/
  | notModelled (mnemonic : String)
  /-- Raised by the move `hostSend` for a frame that is not FRAME_W by FRAME_H. SAFE: such a frame "is
  not an input" (40_encoder.md R95, 93 U21 `refuse`). Entry 22. -/
  | frameDimensions
  deriving DecidableEq, Repr

/-- The state after reset for the parameters `c` (10_state.md R33). The registers R33 leaves
unspecified hold the values of entries 7, 8, 9 and 10. -/
def State.resetWith (c : Config) : State where
  cfg := c
  esc := false
  argn := 0
  tag := .sync
  ready := false
  args := Vector.replicate 3 0#8
  cidx := 0
  col := Vector.replicate 3 0#8
  cx := 0
  cy := 0
  fb := []
  rq := []
  brightness := c.brightnessInit
  accelEnabled := c.accelInit
  numberDisplay := 0#17
  btnReported := Vector.replicate 6 false
  btnIdx := 0
  btnCtr := 0
  exitCtr := 0
  running := true
  readyOwed := false
  btnLive := Vector.replicate 6 false
  ax := 0#16
  ay := 0#16
  az := 0#16
  txReady := false
  h2d := []
  d2h := []
  sender := .idle
  channelOpen := true
  frames := 0
  shown := []
  saved := none
  moves := []
  tick := 0

/-- The machine right after reset, with the standard parameters (entry 6). -/
def State.reset : State := State.resetWith Config.standard

end Sys2Proof.Machine
end

