-- ==== Sys2Proof/Machine/Ops.lean ====
section
/-! DEFINITION. The named operations over the stores and registers: memory, frame buffer and Cursor
(10_state.md R17, R18; 20_memory.md R41; 42_commands.md R134, R146), the Response Queue
(43_response_queue.md R161 to R164), `consume` (42_commands.md R132), session events
(44_buttons_and_session.md R185), and taking the receive interrupt (60_exceptions.md R211 to R216),
which stands here where another machine would have taking an exception: this block has none (R205). -/

namespace Sys2Proof.Machine

/-- What a step answers. -/
abbrev Result := Host.Outcome State Fault Refusal

/-- `f` after a result that goes on. -/
def mapNext (f : State → State) : Result → Result
  | .next s => .next (f s)
  | .fault r => .fault r
  | .refused r => .refused r

/-- A further step after a result that goes on. -/
def andThen (r : Result) (f : State → Result) : Result :=
  match r with
  | .next s => f s
  | .fault e => .fault e
  | .refused e => .refused e

/-- The next state, if there is one. -/
def nextState : Result → Option State
  | .next s => some s
  | .fault _ => none
  | .refused _ => none

/-! ### Memory -/

/-- The canonical form: addresses strictly rising. -/
abbrev Memory.wf (m : Memory) : Prop := m.Pairwise fun p q => p.1 < q.1

/-- The byte last written at `a`; none where nothing has been written (`MemRead(a, 1)`). -/
def Memory.read : Memory → Nat → Option Byte
  | [], _ => none
  | (b, v) :: m, a => if a = b then some v else Memory.read m a

/-- `MemWrite(a, 1, v)`, keeping the canonical form. -/
def Memory.write : Memory → Nat → Byte → Memory
  | [], a, v => [(a, v)]
  | (b, w) :: m, a, v =>
    if a < b then (a, v) :: (b, w) :: m
    else if a = b then (a, v) :: m
    else (b, w) :: Memory.write m a v

/-! ### Frame buffer and Cursor -/

/-- `fbaddr(x, y, c)` (20_memory.md R41). -/
def fbAddr (w x y c : Nat) : Nat := (y * w + x) * 3 + c

/-- Whether the Cursor is inside the frame (10_state.md R28 I3). -/
def cursorInFrame (s : State) : Bool := decide (s.cx < s.cfg.frameW) && decide (s.cy < s.cfg.frameH)

/-- `FbWrite(cx, cy, c, v)` on a memory, at the Cursor of `s` (42_commands.md R133). -/
def fbWrite (s : State) (c : Nat) (v : Byte) (m : Memory) : Memory :=
  m.write (fbAddr s.cfg.frameW s.cx s.cy c) v

/-- `FbRead(x, y, c)` (00_scope.md section 4): what the display reads at a latch. -/
def fbRead (x y c : Nat) (s : State) : Option Byte := s.fb.read (fbAddr s.cfg.frameW x y c)

/-- `cx <- 0; cy <- 0` (41_receiver.md R111, 42_commands.md R136). -/
def cursorHome (s : State) : State := { s with cx := 0, cy := 0 }

/-- `advance_cursor()`: the state after it, and whether the frame is complete (42_commands.md R134). -/
def advanceCursor (s : State) : State × Bool :=
  if s.cx + 1 < s.cfg.frameW then ({ s with cx := s.cx + 1 }, false)
  else if s.cy + 1 < s.cfg.frameH then ({ s with cx := 0, cy := s.cy + 1 }, false)
  else (cursorHome s, true)

/-- `latch_frame()`: the display reads the whole of `fb` as it stands (42_commands.md R146). It writes
no state of the block; `frames` and `shown` are the model's record of it (entry 20). -/
def latchFrame (s : State) : State := { s with frames := s.frames + 1, shown := s.fb }

/-! ### Response Queue -/

/-- `rq_free()` (43_response_queue.md R161). -/
def rqFree (s : State) : Nat := s.cfg.rqCapacity - s.rq.length

/-- `rq_push(b)`; none is `fail`, and then nothing changes (43_response_queue.md R162). -/
def rqPush (b : Byte) (s : State) : Option State :=
  if s.cfg.rqCapacity ≤ s.rq.length then none else some { s with rq := s.rq ++ [b] }

/-- `rq_push_packet(p)`, all or nothing; none is `fail` (43_response_queue.md R163). -/
def rqPushPacket (p : List Byte) (s : State) : Option State :=
  if rqFree s < p.length then none else some { s with rq := s.rq ++ p }

/-- `rq_pop()`: the oldest byte and the state without it; none on an empty queue, which then does not
change (43_response_queue.md R164, R171). -/
def rqPop (s : State) : Option (Byte × State) :=
  match s.rq with
  | [] => none
  | b :: rest => some (b, { s with rq := rest })

/-! ### Handshake and session -/

/-- `consume()` (42_commands.md R132). -/
def consume (s : State) : State := { s with ready := false }

/-- A response of the command in flight and its `consume()`, in one atomic step; where the packet does
not fit, `defer`: nothing changes (42_commands.md R132, R143). -/
def answer (p : List Byte) (s : State) : State :=
  match rqPushPacket p s with
  | some t => consume t
  | none => s

/-- `persist_settings()` (44_buttons_and_session.md R185). It writes no state of the block; `saved` is
the model's record of it (entry 20). -/
def persistSettings (s : State) : State := { s with saved := some (s.brightness, s.accelEnabled) }

/-! ### The receive interrupt -/

/-- Taking the receive interrupt: in command-processing mode, if a byte is there, it is taken from the
channel, which clears the request (60_exceptions.md R211, R212, R215). Nothing is saved, and on return
nothing is restored (R215, R216). None: there is no interrupt (no byte, or the session has ended,
44_buttons_and_session.md R186). -/
def takeByte (s : State) : Option (Byte × State) :=
  if s.running then
    match s.h2d with
    | [] => none
    | b :: rest => some (b, { s with h2d := rest })
  else none

end Sys2Proof.Machine
end

