-- ==== Sys2Proof/Machine/Operands.lean ====
section
/-! DEFINITION. Operand assembly (30_encoding.md R71 to R73): the tag byte, the argument registers, and
the values the Set commands apply. -/

namespace Sys2Proof.Machine

/-- The command tag a byte stands for; none where it is not `recognized` (30_encoding.md R63, R64). -/
def tagOfByte (t : Byte) : Option Tag :=
  if t = 0x00#8 then some .sync
  else if t = 0x01#8 then some .getbr
  else if t = 0x02#8 then some .setbr
  else if t = 0x03#8 then some .getacs
  else if t = 0x04#8 then some .setacs
  else if t = 0x05#8 then some .getacv
  else if t = 0x06#8 then some .setnum
  else none

/-- `arg_count(tag)` (30_encoding.md R64); the internal PUTCOLOR has no argument bytes. -/
def tagArgs : Tag → Fin 4
  | .sync | .getbr | .getacs | .getacv => 0
  | .setbr | .setacs => 1
  | .setnum => 3
  | .putcolor => 0

/-- `clamp(v, lo, hi)` by unsigned comparison (42_commands.md R138, R149). -/
def clamp (v lo hi : Byte) : Byte :=
  if v.toNat < lo.toNat then lo else if hi.toNat < v.toNat then hi else v

/-- The brightness a SetBrightness argument gives (30_encoding.md R71). -/
def brightnessOf (c : Config) (a : Byte) : Byte := clamp a c.brMin c.brMax

/-- `accel_bool(a)` (30_encoding.md R72, 42_commands.md R140): `a != 0`, and where the parameter says
otherwise for a value, 0 (entry 13). -/
def accelBool (c : Config) (a : Byte) : Bool := decide (a ≠ 0#8) && !(c.accelZeros.contains a)

/-- The 17-bit value of three SetNumberDisplay bytes in the order sent,
`b0 | (b1 << 8) | ((b2 & 1) << 16)` (30_encoding.md R73). -/
def numberOf (b0 b1 b2 : Byte) : U17 :=
  b0.setWidth 17 ||| (b1.setWidth 17 <<< 8) ||| ((b2 &&& 1#8).setWidth 17 <<< 16)

/-- The three values a GetAccelValues response carries: zeros while disabled (42_commands.md R141). -/
def accelValues (s : State) : U16 × U16 × U16 :=
  if s.accelEnabled then (s.ax, s.ay, s.az) else (0#16, 0#16, 0#16)

end Sys2Proof.Machine
end

