-- ==== Sys2Proof/Machine/Flags.lean ====
section
/-! DEFINITION. The conditions the rules test on the two flags `esc` and `ready` and the registers
beside them: the source's five state names (10_state.md R27) and the receiver's guards
(41_receiver.md R105, R109). -/

namespace Sys2Proof.Machine

/-- The source's `Idle` (10_state.md R27). -/
def isIdle (s : State) : Bool := !s.esc && decide (s.argn = 0) && !s.ready

/-- The source's `EscapeSeen` (10_state.md R27). -/
def isEscapeSeen (s : State) : Bool := s.esc

/-- The source's `AwaitingColorByte(i)` (10_state.md R27). -/
def isAwaitingColorByte (i : Fin 3) (s : State) : Bool := decide (s.cidx = i)

/-- The source's `AwaitingArgs(t, n)` (10_state.md R27). -/
def isAwaitingArgs (t : Tag) (n : Fin 4) (s : State) : Bool :=
  decide (s.argn = n) && decide (0 < n.val) && decide (s.tag = t)

/-- The source's `CommandReady(t)` (10_state.md R27). -/
def isCommandReady (t : Tag) (s : State) : Bool := s.ready && decide (s.tag = t)

/-- The colour-byte guard, `ready = 1 and tag = PUTCOLOR` (41_receiver.md R109). -/
def colourBusy (s : State) : Bool := isCommandReady .putcolor s

/-- Both designated exit buttons are pressed now: `EXIT_BTN_A = 4`, `EXIT_BTN_B = 5`
(00_scope.md R6, 44_buttons_and_session.md R184). -/
def exitPressed (s : State) : Bool := s.btnLive[4] && s.btnLive[5]

end Sys2Proof.Machine
end

