-- ==== Sys2Proof/Machine/Commands.lean ====
section
/-! DEFINITION. The seven wire commands as the dispatcher executes them (42_commands.md R136 to R144). -/

namespace Sys2Proof.Machine

/-- The common form of the Set commands: if one byte is free, apply, push Ready, consume; else defer,
and then the setting is not applied either (42_commands.md R138, R143, R144). -/
def applyAndAck (apply : State → State) (s : State) : State :=
  if 1 ≤ rqFree s then answer [readyByte] (apply s) else s

/-- SYNC: resets the Cursor, no response, consumed (42_commands.md R136). -/
def execSync (s : State) : Result := .next (consume (cursorHome s))

/-- GETBR: the response `01 <brightness> 78`, or deferred (42_commands.md R137). -/
def execGetbr (s : State) : Result := .next (answer (encode (.rbr s.brightness)) s)

/-- SETBR a: the clamped brightness, then Ready, or deferred (42_commands.md R138). -/
def execSetbr (a : Byte) (s : State) : Result :=
  .next (applyAndAck (fun t => { t with brightness := brightnessOf t.cfg a }) s)

/-- GETACS: the response `(E0|enabled) 78`, or deferred (42_commands.md R139). -/
def execGetacs (s : State) : Result := .next (answer (encode (.racs s.accelEnabled)) s)

/-- SETACS a: the enable flag, then Ready, or deferred (42_commands.md R140). -/
def execSetacs (a : Byte) (s : State) : Result :=
  .next (applyAndAck (fun t => { t with accelEnabled := accelBool t.cfg a }) s)

/-- GETACV: the eight-byte response with the values of this step, or deferred (42_commands.md R141). -/
def execGetacv (s : State) : Result :=
  .next (answer (encode (.racv (accelValues s).1 (accelValues s).2.1 (accelValues s).2.2)) s)

/-- SETNUM b0, b1, b2: the 17-bit value, then Ready, or deferred (42_commands.md R142). -/
def execSetnum (b0 b1 b2 : Byte) (s : State) : Result :=
  .next (applyAndAck (fun t => { t with numberDisplay := numberOf b0 b1 b2 }) s)

end Sys2Proof.Machine
end

