-- ==== Sys2Proof/Machine/PutColor.lean ====
section
/-! DEFINITION. The internal command PUTCOLOR (42_commands.md R133 to R135). -/

namespace Sys2Proof.Machine

/-- The frame buffer after the three writes of a pixel, scaled with the current brightness
(42_commands.md R133, R145). -/
def pixelWritten (r g b : Byte) (s : State) : Memory :=
  fbWrite s 2 (Config.scale s.brightness b)
    (fbWrite s 1 (Config.scale s.brightness g) (fbWrite s 0 (Config.scale s.brightness r) s.fb))

/-- What follows the Cursor's advance: on a complete frame the latch, and Ready is owed; else
`consume()` (42_commands.md R133). -/
def finishPixel (a : State × Bool) : State :=
  if a.2 then { latchFrame a.1 with readyOwed := true } else consume a.1

/-- PUTCOLOR with operands `col[0..2]` (42_commands.md R133). With the Cursor outside the frame, which
10_state.md R28 I3 excludes, it faults (entry 11). -/
def execPutcolor (r g b : Byte) (s : State) : Result :=
  if cursorInFrame s then .next (finishPixel (advanceCursor { s with fb := pixelWritten r g b s }))
  else .fault .fbOutOfFrame

end Sys2Proof.Machine
end

