-- ==== Sys2Proof/Machine/Receiver.lean ====
section
/-! DEFINITION. The receiver's arms (41_receiver.md), and the meanings of the units the receiver itself
executes: COLOR, LITFF, RSVD. The priority order of R101 stands in Machine/Turns.lean. -/

namespace Sys2Proof.Machine

/-- Arm 1, a received argument byte, for `argn > 0` (41_receiver.md R102). -/
def argArm (b : Byte) (s : State) : State :=
  let n : Fin 3 := ⟨s.argn.val - 1, by omega⟩
  { s with
    argn := n.castSucc
    args := s.args.set n.val b n.isLt
    ready := if n = 0 then true else s.ready }

/-- Arm 2 (41_receiver.md R103). -/
def escapeSeen (s : State) : State := { s with esc := true }

/-- `esc <- 0`, the first act of arm 3 (41_receiver.md R104). -/
def clearEsc (s : State) : State := { s with esc := false }

/-- The component index after a store or an increment: 0, 1, 2, then 0 again (41_receiver.md R110). -/
def nextComponent (i : Fin 3) : Fin 3 := if i = 2 then 0 else if i = 1 then 2 else 1

/-- The store of R110: the component goes to `col[cidx]`; the third one makes a PUTCOLOR ready. -/
def colourStore (v : Byte) (s : State) : State :=
  { s with
    col := s.col.set s.cidx.val v s.cidx.isLt
    cidx := nextComponent s.cidx
    tag := if s.cidx = 2 then .putcolor else s.tag
    ready := if s.cidx = 2 then true else s.ready }

/-- Arm 4, `colour_arm(v)`: dropped while a PUTCOLOR is in flight, else stored (41_receiver.md R109, R110). -/
def colourArm (v : Byte) (s : State) : State := if colourBusy s then s else colourStore v s

/-- `sync_side_effect()` (41_receiver.md R111). -/
def syncSideEffect (s : State) : State :=
  { cursorHome s with cidx := if s.cfg.syncResetsCidx then 0 else s.cidx }

/-- `accept_tag(t)` (41_receiver.md R106). -/
def acceptTag (t : Tag) (s : State) : State :=
  let s1 := { s with tag := t }
  let s2 := if t = .sync then syncSideEffect s1 else s1
  if tagArgs t = 0 then { s2 with ready := true } else { s2 with argn := tagArgs t }

/-- COLOR b: one colour component (41_receiver.md R109, R110). -/
def execColor (b : Byte) (s : State) : Result := .next (colourArm b s)

/-- LITFF: the escape is cleared and the colour arm runs with 0xFF (41_receiver.md R108). -/
def execLitff (s : State) : Result := .next (colourArm escByte (clearEsc s))

/-- RSVD t: dropped; only `esc` is written (41_receiver.md R107, 30_encoding.md R65). -/
def execRsvd (_t : Byte) (s : State) : Result := .next (clearEsc s)

end Sys2Proof.Machine
end

