-- ==== Sys2Proof/Machine/Responses.lean ====
section
/-! DEFINITION. The device-to-host units as DISP produces them (30_encoding.md R74 to R78). A response
unit answers the command in flight: its bytes enter the queue whole and the command is consumed, in
one atomic step, or nothing happens (42_commands.md R131, R132, R143). Entry 2. -/

namespace Sys2Proof.Machine

/-- READY: one 0x78. For a completed frame it is `ready_retry()`, which also clears `ready_owed`
(42_commands.md R135); as the answer to a Set command (R138, R140, R142) Ready is not owed, and the
clearing changes nothing. -/
def execReady (s : State) : Result :=
  .next (match rqPush readyByte s with
    | some t => consume { t with readyOwed := false }
    | none => s)

/-- RBR v (30_encoding.md R75, 42_commands.md R137). -/
def execRbr (v : Byte) (s : State) : Result := .next (answer (encode (.rbr v)) s)

/-- RACS e (30_encoding.md R76, 42_commands.md R139). -/
def execRacs (e : Bool) (s : State) : Result := .next (answer (encode (.racs e)) s)

/-- RACV x, y, z (30_encoding.md R77, 42_commands.md R141). -/
def execRacv (x y z : U16) (s : State) : Result := .next (answer (encode (.racv x y z)) s)

/-- `poll_button(i)` that finds the live state `p` (44_buttons_and_session.md R182). -/
def pollButton (i : Fin 6) (p : Bool) (s : State) : State :=
  if p = s.btnReported[i] then s
  else
    match rqPush (buttonByte i p) s with
    | some t => { t with btnReported := t.btnReported.set i.val p i.isLt }
    | none => s

/-- BTN i, p: button `i` is polled and found in state `p` (30_encoding.md R78, 44_buttons_and_session.md R182). -/
def execBtn (i : Fin 6) (p : Bool) (s : State) : Result := .next (pollButton i p s)

end Sys2Proof.Machine
end

