-- ==== Sys2Proof/Machine/Dispatch.lean ====
section
/-! DEFINITION. The meaning of each unit, one arm per row of spec/opcode_table.json. -/

namespace Sys2Proof.Machine

def exec (i : Instr) (s : State) : Host.Outcome State Fault Refusal :=
  match i with
  -- executed by the receiver (41_receiver.md)
  | .color b => Sys2Proof.Machine.execColor b s
  | .litff => Sys2Proof.Machine.execLitff s
  -- executed by the dispatcher (42_commands.md)
  | .sync => Sys2Proof.Machine.execSync s
  | .getbr => Sys2Proof.Machine.execGetbr s
  | .setbr a => Sys2Proof.Machine.execSetbr a s
  | .getacs => Sys2Proof.Machine.execGetacs s
  | .setacs a => Sys2Proof.Machine.execSetacs a s
  | .getacv => Sys2Proof.Machine.execGetacv s
  | .setnum b0 b1 b2 => Sys2Proof.Machine.execSetnum b0 b1 b2 s
  -- executed by the receiver (41_receiver.md)
  | .rsvd t => Sys2Proof.Machine.execRsvd t s
  -- executed by the dispatcher (42_commands.md)
  | .putcolor r g b => Sys2Proof.Machine.execPutcolor r g b s
  -- produced by the dispatcher (30_encoding.md section 4)
  | .ready => Sys2Proof.Machine.execReady s
  | .rbr v => Sys2Proof.Machine.execRbr v s
  | .racs e => Sys2Proof.Machine.execRacs e s
  | .racv x y z => Sys2Proof.Machine.execRacv x y z s
  | .btn n p => Sys2Proof.Machine.execBtn n p s

end Sys2Proof.Machine
end

