-- ==== Sys2Proof/Machine/Fetch.lean ====
section
/-! DEFINITION. Where the machine's next instruction stands. A command the receiver has completed
stands in the one-command slot (`tag`, `args`, `col`, with `ready = 1`; 10_state.md R12 to R16); a unit
the receiver executes itself stands in the byte being taken and, before it, the escape (R10). -/

namespace Sys2Proof.Machine

/-- The command in the slot with its operands: `args` in reverse order of arrival
(10_state.md R14, 30_encoding.md R71 to R73), `col` for PUTCOLOR (42_commands.md R133). -/
def slotInstr (s : State) : Instr :=
  match s.tag with
  | .sync => .sync
  | .getbr => .getbr
  | .setbr => .setbr s.args[0]
  | .getacs => .getacs
  | .setacs => .setacs s.args[0]
  | .getacv => .getacv
  | .setnum => .setnum s.args[2] s.args[1] s.args[0]
  | .putcolor => .putcolor s.col[0] s.col[1] s.col[2]

/-- The bytes of the unit the receiver is at when it takes `b` outside an argument: the pending escape,
if there is one, and `b` (30_encoding.md R68). -/
def unitBytes (b : Byte) (s : State) : List Byte := if s.esc then [escByte, b] else [b]

/-- The slot holds a complete command `t`, and the dispatcher moves next. -/
def inSlot (t : Tag) (s : State) : State :=
  { s with running := true, readyOwed := false, argn := 0, tag := t, ready := true, moves := .disp :: s.moves }

/-- The receiver is at a unit boundary or after an escape, and takes `b` next. -/
def inChannel (esc : Bool) (b : Byte) (s : State) : State :=
  { s with running := true, argn := 0, esc := esc, h2d := b :: s.h2d, moves := .rx :: s.moves }

/-- `s` with the instruction placed where the next step fetches it (entry 4). A wire command stands
received in the slot; COLOR, LITFF and RSVD are at their last byte; a response unit is about to be
produced by the command it answers; a button event is due at that button's poll. -/
def place (i : Instr) (s : State) : State :=
  match i with
  | .color b => inChannel false b s
  | .litff => inChannel true escByte s
  | .rsvd t => inChannel true t s
  | .sync => inSlot .sync s
  | .getbr => inSlot .getbr s
  | .setbr a => inSlot .setbr { s with args := s.args.set 0 a }
  | .getacs => inSlot .getacs s
  | .setacs a => inSlot .setacs { s with args := s.args.set 0 a }
  | .getacv => inSlot .getacv s
  | .setnum b0 b1 b2 => inSlot .setnum { s with args := #v[b2, b1, b0] }
  | .putcolor r g b => inSlot .putcolor { s with col := #v[r, g, b] }
  | .ready => { inSlot .putcolor s with readyOwed := true }
  | .rbr v => inSlot .getbr { s with brightness := v }
  | .racs e => inSlot .getacs { s with accelEnabled := e }
  | .racv x y z => inSlot .getacv { s with accelEnabled := true, ax := x, ay := y, az := z }
  | .btn n p =>
    { s with
      running := true, readyOwed := false, ready := false
      btnIdx := n, btnCtr := s.cfg.btnPollInterval - 1
      btnLive := s.btnLive.set n.val p n.isLt
      moves := .disp :: s.moves }

end Sys2Proof.Machine
end

