-- ==== Sys2Proof/Machine/FrameCodec.lean ====
section
/-! DEFINITION. The Frame Codec's encode side (40_encoder.md): pure functions of the frame, and the
streaming form of R96 with its working position. -/

namespace Sys2Proof.Machine

/-- `esc_comp(c)` (40_encoder.md R91). -/
def escComp (c : Byte) : List Byte := if c = escByte then [escByte, escByte] else [c]

/-- The components of a pixel in channel order (20_memory.md R46). -/
def pixelComponents (p : Pixel) : List Byte := [p.r, p.g, p.b]

/-- The components of a frame in the fixed traversal order, y outer and x inner (40_encoder.md R92). -/
def frameComponents (f : Frame) : List Byte := f.flatMap fun row => row.flatMap pixelComponents

/-- `encode(F)` (40_encoder.md R90): the preamble, then every component escaped. -/
def encodeFrame (f : Frame) : List Byte := escByte :: 0x00#8 :: (frameComponents f).flatMap escComp

/-- `n255(F)`: how many components equal 0xFF (40_encoder.md R94). -/
def count255 (f : Frame) : Nat := (frameComponents f).count escByte

/-- Whether a frame is FRAME_W by FRAME_H (00_scope.md R3). -/
def frameFits (c : Config) (f : Frame) : Bool :=
  decide (f.length = c.frameH) && f.all fun row => decide (row.length = c.frameW)

/-- The pixel `F[y][x]`. -/
def pixelAt (f : Frame) (x y : Nat) : Option Pixel := (f[y]?).bind fun row => row[x]?

/-- Component `c` of a pixel: 0 red, 1 green, 2 blue. -/
def pixelComponent (p : Pixel) (c : Fin 3) : Byte := if c = 0 then p.r else if c = 1 then p.g else p.b

/-- The working position of one call of the streaming encoder (40_encoder.md R96): preamble bytes sent,
the position `(y, x, c)`, and "second half of a doubled escape owed". -/
structure EncPos where
  sent : Nat
  y : Nat
  x : Nat
  c : Fin 3
  owed : Bool
  deriving DecidableEq, Repr

/-- Where a call starts. -/
def encStart : EncPos := { sent := 0, y := 0, x := 0, c := 0, owed := false }

/-- The position after the component at `p`, in a frame `w` pixels wide (40_encoder.md R92). -/
def encAdvance (w : Nat) (p : EncPos) : EncPos :=
  if p.c = 0 then { p with c := 1, owed := false }
  else if p.c = 1 then { p with c := 2, owed := false }
  else if p.x + 1 < w then { p with c := 0, x := p.x + 1, owed := false }
  else { p with c := 0, x := 0, y := p.y + 1, owed := false }

/-- The next byte of the stream and the position after it; none when the frame is done (40_encoder.md R96). -/
def encNext (w : Nat) (f : Frame) (p : EncPos) : Option (Byte × EncPos) :=
  if p.sent = 0 then some (escByte, { p with sent := 1 })
  else if p.sent = 1 then some (0x00#8, { p with sent := 2 })
  else if p.owed then some (escByte, encAdvance w p)
  else
    match pixelAt f p.x p.y with
    | none => none
    | some q =>
      if pixelComponent q p.c = escByte then some (escByte, { p with owed := true })
      else some (pixelComponent q p.c, encAdvance w p)

/-- At most `n` bytes of the stream from a position. -/
def encStream (w : Nat) (f : Frame) : Nat → EncPos → List Byte
  | 0, _ => []
  | n + 1, p =>
    match encNext w f p with
    | none => []
    | some (b, p') => b :: encStream w f n p'

end Sys2Proof.Machine
end

