-- ==== Sys2Proof/Machine/Turns.lean ====
section
/-! DEFINITION. One step of each agent of 00_scope.md R2. Where an agent's step is not enabled its turn
changes nothing (entry 24). -/

namespace Sys2Proof.Machine

/-! ### RX -/

/-- Arm 3: the byte after an escape. A doubled escape is LITFF (R108); else a tag byte, dropped while a
command is in flight (R105), accepted if recognized (R106), else RSVD (R107). 41_receiver.md R104. -/
def afterEscape (b : Byte) (s : State) : Result :=
  if b = escByte then exec .litff s
  else if s.ready then .next (clearEsc s)
  else
    match tagOfByte b with
    | some t => .next (acceptTag t (clearEsc s))
    | none => exec (.rsvd b) s

/-- `rx_step(b)`: the four arms in priority order (41_receiver.md R101). -/
def receive (b : Byte) (s : State) : Result :=
  if s.argn ≠ 0 then .next (argArm b s)
  else if b = escByte ∧ s.esc = false then .next (escapeSeen s)
  else if s.esc then afterEscape b s
  else exec (.color b) s

/-- RX: if the receive interrupt is there, one `rx_step` (41_receiver.md R100, R116). -/
def rxTurn (s : State) : Result :=
  match takeByte s with
  | some (b, t) => receive b t
  | none => .next s

/-! ### DISP -/

/-- `(btn_idx + 1) mod 6` (44_buttons_and_session.md R181). -/
def nextButton (i : Fin 6) : Fin 6 := ⟨(i.val + 1) % 6, by omega⟩

/-- `idle_buttons()` (44_buttons_and_session.md R181): the poll of a button is BTN with its live state. -/
def idleTurn (s : State) : Result :=
  if s.btnCtr + 1 = s.cfg.btnPollInterval then
    mapNext (fun t => { t with btnIdx := nextButton t.btnIdx })
      (exec (.btn s.btnIdx s.btnLive[s.btnIdx]) { s with btnCtr := 0 })
  else .next { s with btnCtr := s.btnCtr + 1 }

/-- `exit_check()` (44_buttons_and_session.md R184). -/
def exitCheck (s : State) : State :=
  if s.exitCtr + 1 = s.cfg.exitPollInterval then
    if exitPressed s then { persistSettings s with exitCtr := 0, running := false } else { s with exitCtr := 0 }
  else { s with exitCtr := s.exitCtr + 1 }

/-- `disp_step()`: while Ready is owed, the retry and nothing else; else the command in the slot or one
idle tick, and then the exit check. Only while `running` (42_commands.md R130). -/
def dispTurn (s : State) : Result :=
  if s.running then
    if s.readyOwed then exec .ready s
    else mapNext exitCheck (if s.ready then exec (slotInstr s) s else idleTurn s)
  else .next s

/-! ### TXD -/

/-- `txd_step()`: enabled when `tx_ready` and the queue is not empty (43_response_queue.md R164). After
the session has ended it stays enabled: what is left may still go out (R173, entry 16). -/
def txdTurn (s : State) : State :=
  if s.txReady then
    match rqPop s with
    | some (b, t) => { t with d2h := t.d2h ++ [b] }
    | none => s
  else s

/-! ### HOST -/

/-- Whether a `send` is in progress (45_frame_sender.md R201). -/
def sending (s : State) : Bool :=
  match s.sender with
  | .writing _ | .reading => true
  | .idle | .finished _ => false

/-- What the Frame Sender still has to write (45_frame_sender.md R196). -/
def unwritten (s : State) : List Byte :=
  match s.sender with
  | .writing rest => rest
  | .idle | .reading | .finished _ => []

/-- The Frame Sender is writing. -/
def isWriting (s : State) : Bool :=
  match s.sender with
  | .writing _ => true
  | .idle | .reading | .finished _ => false

/-- The host writes one byte of its own (45_frame_sender.md R202, R203): any byte at any time, but not
inside a frame it is writing (R196, R201; entry 27) nor after closing. -/
def hostByteTurn (b : Byte) (s : State) : State :=
  if s.channelOpen && !isWriting s then { s with h2d := s.h2d ++ [b] } else s

/-- The host calls `send(F, channel)`, one at a time (45_frame_sender.md R195, R201). A frame of the
wrong size is no input (40_encoder.md R95); on a closed channel the write fails (R198). -/
def hostSendTurn (f : Frame) (s : State) : Result :=
  if sending s then .next s
  else if frameFits s.cfg f then
    .next { s with sender := if s.channelOpen then .writing (encodeFrame f) else .finished .deviceOffline }
  else .refused .frameDimensions

/-- `send` writes the next byte; after the last it reads (45_frame_sender.md R195, R196). -/
def hostWriteTurn (s : State) : State :=
  match s.sender with
  | .writing [] => { s with sender := .reading }
  | .writing [b] => { s with h2d := s.h2d ++ [b], sender := .reading }
  | .writing (b :: rest) => { s with h2d := s.h2d ++ [b], sender := .writing rest }
  | .idle | .reading | .finished _ => s

/-- The host reads one byte: the read loop of `send` ends at the first Ready byte and discards any
other (45_frame_sender.md R197); outside a `send` how the host reads is not specified (R202). Nothing is
read while a frame is being written (R196) or after closing. -/
def hostReadTurn (s : State) : State :=
  if s.channelOpen && !isWriting s then
    match s.d2h with
    | [] => s
    | b :: rest =>
      { s with
        d2h := rest
        sender := if s.sender = .reading ∧ b = readyByte then .finished .ok else s.sender }
  else s

/-- An I/O error or a timeout during the write or the read loop (45_frame_sender.md R198, R199). -/
def hostFailTurn (s : State) : State :=
  if sending s then { s with sender := .finished .deviceOffline } else s

/-- The host closes the channel: what is queued is flushed first (45_frame_sender.md R200); a `send` in
progress is cancelled (entry 18). -/
def hostCloseTurn (s : State) : State :=
  if s.channelOpen then
    { s with
      h2d := s.h2d ++ unwritten s
      channelOpen := false
      sender := if sending s then .finished .deviceOffline else s.sender }
  else s

/-! ### Any move -/

/-- One move of one agent (00_scope.md R2). -/
def runMove (m : Move) (s : State) : Result :=
  match m with
  | .rx => rxTurn s
  | .disp => dispTurn s
  | .txd => .next (txdTurn s)
  | .hostByte b => .next (hostByteTurn b s)
  | .hostSend f => hostSendTurn f s
  | .hostWrite => .next (hostWriteTurn s)
  | .hostRead => .next (hostReadTurn s)
  | .hostFail => .next (hostFailTurn s)
  | .hostClose => .next (hostCloseTurn s)
  | .envButtons live => .next { s with btnLive := live }
  | .envAccel x y z => .next { s with ax := x, ay := y, az := z }
  | .envTxReady r => .next { s with txReady := r }

/-- The move that is next, and the state once it is drawn: the first of `moves`; past their end a free
value (10_state.md R30, 20_memory.md R51; entry 3). -/
def drawMove (s : State) : Move × State :=
  match s.moves with
  | m :: rest => (m, { s with moves := rest })
  | [] => (Config.freeMove s.tick, { s with tick := s.tick + 1 })

end Sys2Proof.Machine
end

