-- ==== Sys2Proof/Machine/Step.lean ====
section
/-! DEFINITION. One step of the machine, and where an instruction is placed for it. -/

namespace Sys2Proof.Machine

/-- One atomic step of one agent (00_scope.md R2, 20_memory.md R51, 42_commands.md R131). -/
def step (s : State) : Host.Outcome State Fault Refusal := runMove (drawMove s).1 (drawMove s).2

/-- `s` with the instruction of a word of spec/opcode_table.json placed where the next step fetches it
(entries 4 and 5). -/
def State.withFetchWord (s : State) (nbits w : Nat) : State :=
  match decodeTableWord nbits w with
  | some i => place i s
  | none => s

end Sys2Proof.Machine
end

