-- ==== Sys2Proof/Machine/Ring.lean ====
section
/-! DEFINITION. The ring-buffer realisation of the Response Queue (10_state.md R20, 43_response_queue.md
R162, R164, R171, R172). It is one realisation of the abstract sequence `rq` that State holds; nothing
observable depends on it (92 D12, entry 21). -/

namespace Sys2Proof.Machine

/-- `rq_mem[0 .. RQ_CAPACITY - 1]`, `rq_rd`, `rq_cnt` (10_state.md R20). -/
structure Ring where
  mem : List Byte
  rd : Nat
  cnt : Nat
  deriving DecidableEq, Repr

/-- The ranges of R20: a read index inside the array and at most as many bytes as it has. -/
def ringWf (r : Ring) : Bool := decide (r.rd < r.mem.length) && decide (r.cnt ≤ r.mem.length)

/-- Reset over any contents of the array (10_state.md R20). -/
def ringReset (cells : List Byte) : Ring := { mem := cells, rd := 0, cnt := 0 }

/-- The abstract sequence, `rq[i] = rq_mem[(rq_rd + i) mod RQ_CAPACITY]` (10_state.md R20). -/
def ringSeq (r : Ring) : List Byte :=
  (List.range r.cnt).map fun i => r.mem.getD ((r.rd + i) % r.mem.length) 0#8

/-- `rq_push(b)` in ring form; none is `fail` (43_response_queue.md R162). -/
def ringPush (b : Byte) (r : Ring) : Option Ring :=
  if r.cnt = r.mem.length then none
  else some { r with mem := r.mem.set ((r.rd + r.cnt) % r.mem.length) b, cnt := r.cnt + 1 }

/-- `rq_pop()` in ring form; none on an empty ring, which does not change (43_response_queue.md R164, R171). -/
def ringPop (r : Ring) : Option (Byte × Ring) :=
  if r.cnt = 0 then none
  else some (r.mem.getD r.rd 0#8, { r with rd := (r.rd + 1) % r.mem.length, cnt := r.cnt - 1 })

end Sys2Proof.Machine
end

