-- ==== Sys2Proof/Safety.lean ====
section
/-! DEFINITION. What claims are stated in: the invariant of 10_state.md R28, the ends of a run of
70_reset_and_hazards.md R244, runs of several agents' steps (receipt of several bytes; the paced receipt of
70_reset_and_hazards.md R234), and infinite runs with the fairness premises of R246. -/

namespace Sys2Proof.Machine

/-- The invariants I1 to I5, I7 and I8 of 10_state.md R28 (I5 is in the types; of I6, that `tag` is one
of the eight values is in its type; its second half, that the argument registers of a ready command have
been written since its tag was accepted, speaks of the past and is left out), with the ranges of the iteration counters (R24), the canonical
form of the frame buffer, its addresses (20_memory.md R41), and the parameters' constraints. -/
def Inv (s : State) : Prop :=
  s.cfg.legal = true ∧
  (s.ready = true → s.argn = 0) ∧
  (s.argn ≠ 0 → s.esc = false ∧ s.ready = false) ∧
  (s.cx < s.cfg.frameW ∧ s.cy < s.cfg.frameH) ∧
  s.rq.length ≤ s.cfg.rqCapacity ∧
  (s.readyOwed = true → s.ready = true ∧ s.tag = .putcolor) ∧
  (s.cfg.brMin.toNat ≤ s.brightness.toNat ∧ s.brightness.toNat ≤ s.cfg.brMax.toNat) ∧
  (s.btnCtr < s.cfg.btnPollInterval ∧ s.exitCtr < s.cfg.exitPollInterval) ∧
  s.fb.wf ∧
  (∀ p ∈ s.fb, p.1 < s.cfg.frameW * s.cfg.frameH * 3)

/-- Session end: command-processing mode has been left (70_reset_and_hazards.md R244). -/
def sessionEnded (s : State) : Bool := !s.running

/-- What quiescence asks of one state (70_reset_and_hazards.md R244): nothing is on its way to the receiver,
in the slot, owed or queued, and the host has not begun a frame of which bytes are still to come. That the host
begins nothing more either is a matter of the moves to come: `quiescentAt`. -/
def quiescent (s : State) : Bool :=
  s.running && s.h2d.isEmpty && !s.ready && !s.readyOwed && s.rq.isEmpty && !isWriting s

/-- Receipt of several bytes, one `rx_step` each, with no other agent between (41_receiver.md R100). -/
def receiveAll : List Byte → State → Result
  | [], s => .next s
  | b :: bs, s => andThen (receive b s) (receiveAll bs)

/-- The bytes of the wire command `i`, received from a state at a unit boundary with nothing in flight,
leave exactly `i` in the slot: ready, no argument awaited, no escape pending; and nothing is written but
`tag`, `ready`, the argument registers, and for SyncCoords the Cursor and the component index
(41_receiver.md R102, R106, R111; 30_encoding.md R71 to R73). -/
def ReceivedInto (i : Instr) (s : State) : Prop :=
  ∃ t, receiveAll (encode i) s = .next t ∧ slotInstr t = i ∧ t.ready = true ∧
    t = { s with
      tag := t.tag, ready := true, args := t.args
      cx := if i = .sync then 0 else s.cx
      cy := if i = .sync then 0 else s.cy
      cidx := if i = .sync ∧ s.cfg.syncResetsCidx = true then 0 else s.cidx }

/-- Dispatcher iterations while a command is in flight, at most two: the second one is the Ready retry
of a completed frame (42_commands.md R130, R135). -/
def dispatchReady (s : State) : Result :=
  if s.ready then andThen (dispTurn s) fun t => if t.ready then dispTurn t else .next t else .next s

/-- The pacing of 70_reset_and_hazards.md R234: every ready command is consumed before the next byte. -/
def pacedReceive : List Byte → State → Result
  | [], s => .next s
  | b :: bs, s => andThen (andThen (receive b s) dispatchReady) (pacedReceive bs)

/-- `n` steps of the channel-write poller (43_response_queue.md R164). -/
def drain : Nat → State → State
  | 0, s => s
  | n + 1, s => drain n (txdTurn s)

/-- The response of the wire command in the slot (42_commands.md R136 to R142): the packet of a Get command,
Ready for a Set command, nothing for SyncCoords. -/
def responseOf (s : State) : List Byte :=
  match s.tag with
  | .sync | .putcolor => []
  | .getbr => [0x01#8, s.brightness, 0x78#8]
  | .getacs => [if s.accelEnabled then 0xE1#8 else 0xE0#8, 0x78#8]
  | .getacv =>
    if s.accelEnabled then
      [0x05#8, s.ax.extractLsb' 0 8, s.ax.extractLsb' 8 8, s.ay.extractLsb' 0 8,
        s.ay.extractLsb' 8 8, s.az.extractLsb' 0 8, s.az.extractLsb' 8 8, 0x78#8]
    else [0x05#8, 0x00#8, 0x00#8, 0x00#8, 0x00#8, 0x00#8, 0x00#8, 0x78#8]
  | .setbr | .setacs | .setnum => [0x78#8]

/-! ### Infinite runs -/

/-- An infinite run under the schedule `m`, `r n` being the state before the move `m n` (10_state.md R30: a
claim quantifies over the schedule). Entry 28. -/
def IsRun (m : Nat → Move) (r : Nat → State) : Prop := ∀ n, runMove (m n) (r n) = .next (r (n + 1))

/-- First premise of 70_reset_and_hazards.md R246: while `running = 1` the dispatcher takes steps infinitely
often. -/
def dispatcherFair (m : Nat → Move) (r : Nat → State) : Prop :=
  ∀ n, ∃ k, n ≤ k ∧ ((r k).running = false ∨ m k = .disp)

/-- Second premise of R246: every received byte is eventually given to `rx_step`. Bytes are taken in order, so
this is that the interrupt is taken again and again while a byte is there. -/
def interruptFair (m : Nat → Move) (r : Nat → State) : Prop :=
  ∀ n, ∃ k, n ≤ k ∧ ((r k).running = false ∨ (r k).h2d = [] ∨ m k = .rx)

/-- Third premise of R246, as it is written: `tx_ready` is true infinitely often whenever `rq` is not empty. -/
def txReadyFair (r : Nat → State) : Prop := ∀ n, ∃ k, n ≤ k ∧ ((r k).rq = [] ∨ (r k).txReady = true)

/-- Third premise of R246, as a liveness claim needs it: "the channel keeps accepting bytes". The poller looks
infinitely often while `tx_ready` is true and `rq` is not empty; the queue is "drained opportunistically
whenever the channel can accept a byte" (43_response_queue.md R164). DEDUCED, entry 28. -/
def channelFair (m : Nat → Move) (r : Nat → State) : Prop :=
  ∀ n, ∃ k, n ≤ k ∧ ((r k).rq = [] ∨ (m k = .txd ∧ (r k).txReady = true))

/-- The premises of R246 together. -/
def Fair (m : Nat → Move) (r : Nat → State) : Prop := dispatcherFair m r ∧ interruptFair m r ∧ channelFair m r

/-- Whether a move is the host beginning to send something. -/
def hostSends : Move → Bool
  | .hostByte _ | .hostSend _ => true
  | .rx | .disp | .txd | .hostWrite | .hostRead | .hostFail | .hostClose | .envButtons _ | .envAccel _ _ _
  | .envTxReady _ => false

/-- Quiescence of a run from its `n`-th state on (70_reset_and_hazards.md R244): that state is quiescent, and the
host sends nothing more. -/
def quiescentAt (m : Nat → Move) (r : Nat → State) (n : Nat) : Prop :=
  quiescent (r n) = true ∧ ∀ k, n ≤ k → hostSends (m k) = false

end Sys2Proof.Machine
end

