-- ==== Sys2Proof/Certificates/Slice0/Obligations.lean ====
section
/-! DEFINITION. The statements for the provers. Each docstring names the rule of spec/ it formalises. -/

open Sys2Proof Sys2Proof.Machine

/-! ### Wire encoding -/

/-- 30_encoding.md section 2 (R62, R66 to R68): the bytes of every well-formed host-to-device unit decode
to that unit, and the bytes after it are left. -/
def Obligations.HostUnitsDecodeToThemselves : Prop :=
  ∀ (i : Instr) (rest : List Byte), i.direction = .hostToDevice → i.wellFormed = true →
    decode (encode i ++ rest) = .ok (i, rest)

/-- 30_encoding.md section 4 (R74 to R78): the bytes of every device-to-host unit decode to that unit,
and the bytes after it are left. -/
def Obligations.DeviceUnitsDecodeToThemselves : Prop :=
  ∀ (i : Instr) (rest : List Byte), i.direction = .deviceToHost →
    decodeDevice (encode i ++ rest) = .ok (i, rest)

/-- 30_encoding.md section 2: what the host-to-device decoder reads is a well-formed host unit, and its
encoding with the bytes left over is what was read, as many bytes as R68 finds from the first two. No byte is skipped or invented. -/
def Obligations.DecodedHostBytesReencode : Prop :=
  ∀ (bs : List Byte) (i : Instr) (rest : List Byte), decode bs = .ok (i, rest) →
    i.wellFormed = true ∧ i.direction = .hostToDevice ∧ encode i ++ rest = bs ∧
    unitLength bs = some (encode i).length

/-- 30_encoding.md R62, R81: a few words of the encoding tables, by decoding. -/
def Obligations.SpecWordsDecode : Prop :=
  decode [0x12#8] = .ok (.color 0x12#8, []) ∧
  decode [0xFF#8, 0xFF#8] = .ok (.litff, []) ∧
  decode [0xFF#8, 0x02#8, 0x64#8] = .ok (.setbr 0x64#8, []) ∧
  decode [0xFF#8, 0x06#8, 0x39#8, 0x30#8, 0x01#8] = .ok (.setnum 0x39#8 0x30#8 0x01#8, []) ∧
  decode [0xFF#8, 0x07#8] = .ok (.rsvd 0x07#8, []) ∧
  decodeDevice [0xF5#8] = .ok (.btn 2 true, []) ∧
  decodeDevice [0x05#8, 0x23#8, 0x01#8, 0xFE#8, 0xFF#8, 0x00#8, 0x80#8, 0x78#8] =
    .ok (.racv 0x0123#16 0xFFFE#16 0x8000#16, [])

/-- R80: the first byte of every unit the device emits is one of `0x78`, `0x01`, `0x05`, `0xE0`, `0xE1`,
`0xF0..0xFB`; in particular never `0xFC..0xFF`. -/
def Obligations.DeviceUnitFirstBytes : Prop :=
  ∀ i : Instr, i.direction = .deviceToHost →
    ∃ (h : Byte) (r : List Byte), encode i = h :: r ∧
      (h = 0x78#8 ∨ h = 0x01#8 ∨ h = 0x05#8 ∨ h = 0xE0#8 ∨ h = 0xE1#8 ∨ (0xF0 ≤ h.toNat ∧ h.toNat ≤ 0xFB))

/-! ### Frame Codec -/

/-- 40_encoder.md R91, R94: `esc_comp`; the length of an encoded frame, its bounds, its first two bytes, and that the rest
is the components with each `0xFF` doubled. -/
def Obligations.EncodedFrameLength : Prop :=
  (∀ v : Byte, escComp v = if v = 0xFF#8 then [0xFF#8, 0xFF#8] else [v]) ∧
  ∀ (c : Config) (f : Frame), frameFits c f = true →
    (encodeFrame f).length = 2 + 3 * c.frameW * c.frameH + count255 f ∧
    count255 f ≤ 3 * c.frameW * c.frameH ∧
    (encodeFrame f).take 2 = [0xFF#8, 0x00#8] ∧
    (encodeFrame f).drop 2 = (frameComponents f).flatMap escComp

/-- R96: the streaming form produces the byte sequence of `encode(F)`, and then nothing. 30_encoding.md R82:
the bytes of the units of the pseudo-unit `FRAME F`, which are SYNC and `COMP` of every component in row-major
order, are `encode(F)` too. -/
def Obligations.StreamingEncoderEqualsEncode : Prop :=
  (∀ (c : Config) (f : Frame) (n : Nat), frameFits c f = true → (encodeFrame f).length ≤ n →
    encStream c.frameW f n encStart = encodeFrame f) ∧
  (∀ f : Frame, encodeUnits (frameUnits f) = encodeFrame f ∧
    frameUnits f = .sync :: (frameComponents f).map compUnit)

/-! ### Command Receiver -/

/-- R102: an argument byte goes to the slot of the decremented counter, whatever its value; at 0 the
command is ready. -/
def Obligations.ArgumentByteStored : Prop :=
  ∀ (b : Byte) (s : State) (n : Fin 3), s.argn = n.succ →
    receive b s = .next { s with
      argn := n.castSucc
      args := s.args.set n.val b n.isLt
      ready := if n = 0 then true else s.ready }

/-- R103: the escape byte, with no argument awaited and no escape pending, only sets `esc`. -/
def Obligations.EscapeByteOnlySetsEsc : Prop :=
  ∀ s : State, s.argn = 0 → s.esc = false → receive 0xFF#8 s = .next { s with esc := true }

/-- R106 and R111: each recognized tag with nothing in flight; SyncCoords resets the Cursor at once, and
the component index if SYNC_RESETS_CIDX. -/
def Obligations.RecognizedTagAccepted : Prop :=
  ∀ s : State, s.argn = 0 → s.esc = true → s.ready = false →
    receive 0x00#8 s = .next { s with
      esc := false, tag := .sync, ready := true, cx := 0, cy := 0
      cidx := if s.cfg.syncResetsCidx then 0 else s.cidx } ∧
    receive 0x01#8 s = .next { s with esc := false, tag := .getbr, ready := true } ∧
    receive 0x02#8 s = .next { s with esc := false, tag := .setbr, argn := 1 } ∧
    receive 0x03#8 s = .next { s with esc := false, tag := .getacs, ready := true } ∧
    receive 0x04#8 s = .next { s with esc := false, tag := .setacs, argn := 1 } ∧
    receive 0x05#8 s = .next { s with esc := false, tag := .getacv, ready := true } ∧
    receive 0x06#8 s = .next { s with esc := false, tag := .setnum, argn := 3 }

/-- R105 and R107: a tag byte while a command is in flight, whatever the tag, and a reserved tag with
nothing in flight, only clear `esc`; and that is what RSVD does in every state. -/
def Obligations.DroppedTagsOnlyClearEsc : Prop :=
  (∀ (b : Byte) (s : State), s.argn = 0 → s.esc = true → s.ready = true → b ≠ 0xFF#8 →
    receive b s = .next { s with esc := false }) ∧
  (∀ (t : Byte) (s : State), 7 ≤ t.toNat → t.toNat ≤ 0xFE → s.argn = 0 → s.esc = true → s.ready = false →
    receive t s = .next { s with esc := false }) ∧
  (∀ (t : Byte) (s : State), exec (.rsvd t) s = .next { s with esc := false })

/-- R109: while a PUTCOLOR is in flight a colour byte changes nothing, and a doubled escape only
clears `esc`. -/
def Obligations.ColourByteDroppedWhilePutcolorInFlight : Prop :=
  ∀ (b : Byte) (s : State), s.ready = true → s.tag = .putcolor →
    exec (.color b) s = .next s ∧ exec .litff s = .next { s with esc := false }

/-- R110: the component is stored at `col[cidx]`; the third one makes a PUTCOLOR ready, over whatever was
in flight. -/
def Obligations.ColourByteStored : Prop :=
  ∀ (b : Byte) (s : State), ¬(s.ready = true ∧ s.tag = .putcolor) →
    (s.cidx = 0 → exec (.color b) s = .next { s with col := s.col.set 0 b, cidx := 1 }) ∧
    (s.cidx = 1 → exec (.color b) s = .next { s with col := s.col.set 1 b, cidx := 2 }) ∧
    (s.cidx = 2 → exec (.color b) s =
      .next { s with col := s.col.set 2 b, cidx := 0, tag := .putcolor, ready := true })

/-- R108: a doubled escape is LITFF: it clears `esc` and stores the component 0xFF, under the same guard as
a plain colour byte, and whatever other command is in flight. -/
def Obligations.DoubledEscapeStoresFF : Prop :=
  ∀ s : State,
    (s.argn = 0 → s.esc = true → receive 0xFF#8 s = exec .litff s) ∧
    (s.ready = true ∧ s.tag = .putcolor → exec .litff s = .next { s with esc := false }) ∧
    (¬(s.ready = true ∧ s.tag = .putcolor) → exec .litff s = .next { s with
      esc := false
      col := s.col.set s.cidx.val 0xFF#8 s.cidx.isLt
      cidx := if s.cidx = 2 then 0 else s.cidx + 1
      tag := if s.cidx = 2 then .putcolor else s.tag
      ready := if s.cidx = 2 then true else s.ready })

/-- R117: `esc_comp(c)`, received at a unit boundary with the guard false, stores exactly one component
`c` at `col[cidx]` and advances `cidx` once, for every byte `c`. -/
def Obligations.EscapedComponentDecodes : Prop :=
  ∀ (c : Byte) (s : State), s.esc = false → s.argn = 0 → ¬(s.ready = true ∧ s.tag = .putcolor) →
    receiveAll (escComp c) s = .next { s with
      col := s.col.set s.cidx.val c s.cidx.isLt
      cidx := if s.cidx = 2 then 0 else s.cidx + 1
      tag := if s.cidx = 2 then .putcolor else s.tag
      ready := if s.cidx = 2 then true else s.ready }

/-- 41_receiver.md R100, R114: every byte in every state gives a next state, in which only the receiver's
state and the Cursor can differ. -/
def Obligations.ReceiverWritesOnlyItsState : Prop :=
  ∀ (b : Byte) (s : State), ∃ t, receive b s = .next t ∧
    t = { s with
      esc := t.esc, argn := t.argn, tag := t.tag, ready := t.ready, args := t.args, cidx := t.cidx
      col := t.col, cx := t.cx, cy := t.cy }

/-- 41_receiver.md R100, 10_state.md R29: what the receiver writes depends on its own state, the Cursor,
the byte and SYNC_RESETS_CIDX alone: neither the queue, the frame buffer, the settings nor the
environment shows in it. -/
def Obligations.ReceiverReadsOnlyItsState : Prop :=
  ∀ (b : Byte) (s u t v : State),
    s.esc = u.esc → s.argn = u.argn → s.tag = u.tag → s.ready = u.ready → s.args = u.args →
    s.cidx = u.cidx → s.col = u.col → s.cx = u.cx → s.cy = u.cy →
    s.cfg.syncResetsCidx = u.cfg.syncResetsCidx →
    receive b s = .next t → receive b u = .next v →
    t.esc = v.esc ∧ t.argn = v.argn ∧ t.tag = v.tag ∧ t.ready = v.ready ∧ t.args = v.args ∧
    t.cidx = v.cidx ∧ t.col = v.col ∧ t.cx = v.cx ∧ t.cy = v.cy

/-- 41_receiver.md R102, R115: with `argn = k > 0`, any `k` bytes complete the command: `argn = 0`,
`ready = 1`, the tag kept, no escape and no colour taken from them. Each of the `k` argument registers has been
written, the last byte in `args[0]` (10_state.md R14; the second half of R28 I6). -/
def Obligations.AwaitedArgumentsCompleteTheCommand : Prop :=
  ∀ (bs : List Byte) (s : State), s.argn ≠ 0 → bs.length = s.argn.val →
    ∃ t, receiveAll bs s = .next t ∧ t.argn = 0 ∧ t.ready = true ∧ t.tag = s.tag ∧ t.esc = s.esc ∧
      t.cidx = s.cidx ∧ t.col = s.col ∧
      ∀ j : Fin 3, j.val < s.argn.val → bs[s.argn.val - 1 - j.val]? = some t.args[j]

/-- 70_reset_and_hazards.md R236, 30_encoding.md R69: while a wire command is in flight, SETBR's tag is
dropped and its argument is read as a colour byte. -/
def Obligations.DroppedTagLeavesArgumentAsColour : Prop :=
  ∀ (a : Byte) (s : State), s.argn = 0 → s.esc = false → s.ready = true → s.tag ≠ .putcolor → a ≠ 0xFF#8 →
    receiveAll (encode (.setbr a)) s = exec (.color a) s

/-- 70_reset_and_hazards.md R235: three colour components over a wire command in flight replace it by
their PUTCOLOR, and nothing is left of it. -/
def Obligations.ColoursOverwriteCommandInFlight : Prop :=
  ∀ (r g b : Byte) (s : State), s.argn = 0 → s.esc = false → s.ready = true → s.tag ≠ .putcolor → s.cidx = 0 →
    ∃ t, receiveAll (escComp r ++ escComp g ++ escComp b) s = .next t ∧
      t.ready = true ∧ slotInstr t = .putcolor r g b ∧ t.rq = s.rq ∧ t.cidx = 0

/-- 20_memory.md R52 (a), (b): while a command is in flight no byte makes the receiver write `args`, the
Cursor or `argn`, nor clear `ready`; with a PUTCOLOR in flight only `esc` can change; with a wire command
the tag can only become PUTCOLOR, by the third colour component. -/
def Obligations.CommandInFlightIsStable : Prop :=
  ∀ (b : Byte) (s t : State), s.ready = true → s.argn = 0 → receive b s = .next t →
    (s.tag = .putcolor → t = { s with esc := t.esc }) ∧
    (s.tag ≠ .putcolor →
      t = { s with esc := t.esc, cidx := t.cidx, col := t.col, tag := t.tag } ∧
      (t.tag = s.tag ∨ (t.tag = .putcolor ∧ s.cidx = 2)))

/-! ### The wire commands -/

/-- R136: SyncCoords. -/
def Obligations.SyncCoordsExecuted : Prop :=
  encode .sync = [0xFF#8, 0x00#8] ∧
  (∀ s : State, s.argn = 0 → s.esc = false → s.ready = false → ReceivedInto .sync s) ∧
  (∀ s : State, exec .sync s = .next { s with cx := 0, cy := 0, ready := false })

/-- R137: GetBrightness. -/
def Obligations.GetBrightnessAnsweredOrDeferred : Prop :=
  encode .getbr = [0xFF#8, 0x01#8] ∧
  (∀ s : State, s.argn = 0 → s.esc = false → s.ready = false → ReceivedInto .getbr s) ∧
  (∀ s : State,
    (3 ≤ rqFree s → exec .getbr s =
      .next { s with rq := s.rq ++ [0x01#8, s.brightness, 0x78#8], ready := false }) ∧
    (rqFree s < 3 → exec .getbr s = .next s))

/-- R138: SetBrightness, clamped to `[BR_MIN, BR_MAX]` by unsigned comparison. -/
def Obligations.SetBrightnessClampsAndAcknowledges : Prop :=
  (∀ a : Byte, encode (.setbr a) = [0xFF#8, 0x02#8, a]) ∧
  (∀ (a : Byte) (s : State), s.argn = 0 → s.esc = false → s.ready = false → ReceivedInto (.setbr a) s) ∧
  (∀ (a : Byte) (s : State),
    (1 ≤ rqFree s → exec (.setbr a) s = .next { s with
      brightness :=
        if a.toNat < s.cfg.brMin.toNat then s.cfg.brMin
        else if s.cfg.brMax.toNat < a.toNat then s.cfg.brMax else a
      rq := s.rq ++ [0x78#8], ready := false }) ∧
    (rqFree s = 0 → exec (.setbr a) s = .next s))

/-- R139: GetAccelState. -/
def Obligations.GetAccelStateAnsweredOrDeferred : Prop :=
  encode .getacs = [0xFF#8, 0x03#8] ∧
  (∀ s : State, s.argn = 0 → s.esc = false → s.ready = false → ReceivedInto .getacs s) ∧
  (∀ s : State,
    (2 ≤ rqFree s → exec .getacs s = .next { s with
      rq := s.rq ++ [if s.accelEnabled then 0xE1#8 else 0xE0#8, 0x78#8], ready := false }) ∧
    (rqFree s < 2 → exec .getacs s = .next s))

/-- R140: SetAccelState, with `accel_bool` the parameter of the configuration: for its default (no value
mapped otherwise) it is `a != 0`, and for every legal one 0 disables and 1 enables. -/
def Obligations.SetAccelStateAppliesAndAcknowledges : Prop :=
  (∀ a : Byte, encode (.setacs a) = [0xFF#8, 0x04#8, a]) ∧
  (∀ (a : Byte) (s : State), s.argn = 0 → s.esc = false → s.ready = false → ReceivedInto (.setacs a) s) ∧
  (∀ (a : Byte) (s : State),
    (1 ≤ rqFree s → exec (.setacs a) s = .next { s with
      accelEnabled := accelBool s.cfg a, rq := s.rq ++ [0x78#8], ready := false }) ∧
    (rqFree s = 0 → exec (.setacs a) s = .next s)) ∧
  (∀ (c : Config) (a : Byte), c.accelZeros = [] → accelBool c a = decide (a ≠ 0#8)) ∧
  (∀ c : Config, c.legal = true → accelBool c 0#8 = false ∧ accelBool c 1#8 = true)

/-- R141: GetAccelValues: low byte first, zeros while disabled. -/
def Obligations.GetAccelValuesAnsweredOrDeferred : Prop :=
  encode .getacv = [0xFF#8, 0x05#8] ∧
  (∀ s : State, s.argn = 0 → s.esc = false → s.ready = false → ReceivedInto .getacv s) ∧
  (∀ s : State,
    (8 ≤ rqFree s → s.accelEnabled = true → exec .getacv s = .next { s with
      rq := s.rq ++ [0x05#8, s.ax.extractLsb' 0 8, s.ax.extractLsb' 8 8, s.ay.extractLsb' 0 8,
        s.ay.extractLsb' 8 8, s.az.extractLsb' 0 8, s.az.extractLsb' 8 8, 0x78#8]
      ready := false }) ∧
    (8 ≤ rqFree s → s.accelEnabled = false → exec .getacv s = .next { s with
      rq := s.rq ++ [0x05#8, 0x00#8, 0x00#8, 0x00#8, 0x00#8, 0x00#8, 0x00#8, 0x78#8], ready := false }) ∧
    (rqFree s < 8 → exec .getacv s = .next s))

/-- R142: SetNumberDisplay. -/
def Obligations.SetNumberDisplayAppliesAndAcknowledges : Prop :=
  (∀ b0 b1 b2 : Byte, encode (.setnum b0 b1 b2) = [0xFF#8, 0x06#8, b0, b1, b2]) ∧
  (∀ (b0 b1 b2 : Byte) (s : State), s.argn = 0 → s.esc = false → s.ready = false →
    ReceivedInto (.setnum b0 b1 b2) s) ∧
  (∀ (b0 b1 b2 : Byte) (s : State),
    (1 ≤ rqFree s → exec (.setnum b0 b1 b2) s = .next { s with
      numberDisplay := b0.setWidth 17 ||| (b1.setWidth 17 <<< 8) ||| ((b2 &&& 1#8).setWidth 17 <<< 16)
      rq := s.rq ++ [0x78#8], ready := false }) ∧
    (rqFree s = 0 → exec (.setnum b0 b1 b2) s = .next s))

/-- R73: the argument reordering law, end to end: the three bytes in the order sent, received and then
dispatched, display `b0 | (b1 << 8) | ((b2 & 1) << 16)`, a value in 0..131071 in which bits 7..1 of `b2`
do not show. 30_encoding.md R82: so the bytes of the pseudo-unit `SETNUMV v` display `v`, for every `v`. -/
def Obligations.ArgumentReorderingLaw : Prop :=
  (∀ (b0 b1 b2 : Byte) (s : State), s.argn = 0 → s.esc = false → s.ready = false → 1 ≤ rqFree s →
    ∃ t u, receiveAll [0xFF#8, 0x06#8, b0, b1, b2] s = .next t ∧ exec (slotInstr t) t = .next u ∧
      t.args = #v[b2, b1, b0] ∧
      u.numberDisplay.toNat = b0.toNat + 256 * b1.toNat + 65536 * (b2.toNat % 2)) ∧
  (∀ (v : U17) (s : State), s.argn = 0 → s.esc = false → s.ready = false → 1 ≤ rqFree s →
    ∃ t u, receiveAll (encode (setnumvUnit v)) s = .next t ∧ exec (slotInstr t) t = .next u ∧
      u.numberDisplay = v)

/-! ### PUTCOLOR -/

/-- R133: PUTCOLOR with the Cursor in the frame writes the three scaled components at
`(cy * FRAME_W + cx) * 3 + c` and advances the Cursor; inside a row, at a row's end, and at the last
pixel, where the frame is latched, the Cursor returns to (0, 0), and Ready is owed instead of the
command being consumed. -/
def Obligations.PutcolorWritesAndAdvances : Prop :=
  ∀ (r g b : Byte) (s : State), s.cx < s.cfg.frameW → s.cy < s.cfg.frameH →
    let base := (s.cy * s.cfg.frameW + s.cx) * 3
    let fb := ((s.fb.write base (Config.scale s.brightness r)).write (base + 1)
      (Config.scale s.brightness g)).write (base + 2) (Config.scale s.brightness b)
    (s.cx + 1 < s.cfg.frameW →
      exec (.putcolor r g b) s = .next { s with fb := fb, cx := s.cx + 1, ready := false }) ∧
    (s.cx + 1 = s.cfg.frameW → s.cy + 1 < s.cfg.frameH →
      exec (.putcolor r g b) s = .next { s with fb := fb, cx := 0, cy := s.cy + 1, ready := false }) ∧
    (s.cx + 1 = s.cfg.frameW → s.cy + 1 = s.cfg.frameH →
      exec (.putcolor r g b) s = .next { s with
        fb := fb, cx := 0, cy := 0, readyOwed := true, frames := s.frames + 1, shown := fb })

/-- The model's choice (assumption log entry 11): with the Cursor outside the frame, which the spec says
cannot occur (20_memory.md R43, 10_state.md R28 I3), PUTCOLOR stops by name. -/
def Obligations.PutcolorOutsideTheFrameStops : Prop :=
  ∀ (r g b : Byte) (s : State), s.cfg.frameW ≤ s.cx ∨ s.cfg.frameH ≤ s.cy →
    exec (.putcolor r g b) s = .fault .fbOutOfFrame

/-- 42_commands.md R133, 20_memory.md R41: the frame of PUTCOLOR. Every byte of the frame buffer outside
the three of the Cursor's pixel reads as before, those three read the scaled components, and nothing
changes but the frame buffer, the Cursor, `ready`, `ready_owed` and the model's record of the latch. -/
def Obligations.PutcolorFrame : Prop :=
  ∀ (r g b : Byte) (s t : State), exec (.putcolor r g b) s = .next t →
    (∀ a, (∀ c, c < 3 → a ≠ fbAddr s.cfg.frameW s.cx s.cy c) → t.fb.read a = s.fb.read a) ∧
    t.fb.read (fbAddr s.cfg.frameW s.cx s.cy 0) = some (Config.scale s.brightness r) ∧
    t.fb.read (fbAddr s.cfg.frameW s.cx s.cy 1) = some (Config.scale s.brightness g) ∧
    t.fb.read (fbAddr s.cfg.frameW s.cx s.cy 2) = some (Config.scale s.brightness b) ∧
    t = { s with
      fb := t.fb, cx := t.cx, cy := t.cy, ready := t.ready, readyOwed := t.readyOwed
      frames := t.frames, shown := t.shown }

/-! ### Device units -/

/-- R135: `ready_retry()`, which is READY while a Ready is owed: pushed if there is room, and then Ready
is no longer owed and the PUTCOLOR is consumed; else nothing changes. While Ready is owed a dispatcher
step is that and nothing else. That READY does the same where no Ready is owed, where R135 has no step, is the
model's choice (entry 2): as the answer to a Set command it is the push and the consuming. -/
def Obligations.ReadyRetriedUntilQueued : Prop :=
  ∀ s : State,
    (s.rq.length < s.cfg.rqCapacity → exec .ready s =
      .next { s with rq := s.rq ++ [0x78#8], readyOwed := false, ready := false }) ∧
    (s.cfg.rqCapacity ≤ s.rq.length → exec .ready s = .next s) ∧
    (s.running = true → s.readyOwed = true → dispTurn s = exec .ready s)

/-- R75, R76 and R77 in the producer's step (42_commands.md R137, R139, R141, R143): a response unit enters
the queue whole, with the command consumed, or nothing changes. That the consuming belongs to the unit's
meaning is the model's choice (entry 2). -/
def Obligations.ResponseUnitsWholeOrNotAtAll : Prop :=
  ∀ s : State,
    (∀ v : Byte, (3 ≤ rqFree s → exec (.rbr v) s =
        .next { s with rq := s.rq ++ [0x01#8, v, 0x78#8], ready := false }) ∧
      (rqFree s < 3 → exec (.rbr v) s = .next s)) ∧
    (∀ e : Bool, (2 ≤ rqFree s → exec (.racs e) s =
        .next { s with rq := s.rq ++ [if e then 0xE1#8 else 0xE0#8, 0x78#8], ready := false }) ∧
      (rqFree s < 2 → exec (.racs e) s = .next s)) ∧
    (∀ x y z : U16, (8 ≤ rqFree s → exec (.racv x y z) s =
        .next { s with
          rq := s.rq ++ [0x05#8, x.extractLsb' 0 8, x.extractLsb' 8 8, y.extractLsb' 0 8,
            y.extractLsb' 8 8, z.extractLsb' 0 8, z.extractLsb' 8 8, 0x78#8]
          ready := false }) ∧
      (rqFree s < 8 → exec (.racv x y z) s = .next s))

/-- R182 and R78: a button found changed since its last report is reported by `0xF0 + 2 i + p` if there is
room, and only then is the reported state updated; unchanged, or with no room, nothing happens. -/
def Obligations.ButtonEdgeReportedBestEffort : Prop :=
  ∀ (i : Fin 6) (p : Bool) (s : State),
    (p = s.btnReported[i] → exec (.btn i p) s = .next s) ∧
    (p ≠ s.btnReported[i] → s.rq.length < s.cfg.rqCapacity → exec (.btn i p) s = .next { s with
      rq := s.rq ++ [BitVec.ofNat 8 (0xF0 + 2 * i.val + p.toNat)]
      btnReported := s.btnReported.set i.val p i.isLt }) ∧
    (p ≠ s.btnReported[i] → s.cfg.rqCapacity ≤ s.rq.length → exec (.btn i p) s = .next s)

/-- 10_state.md R29, 41_receiver.md R102 to R110, 42_commands.md R136 to R142, 44_buttons_and_session.md R182:
the frame of every unit but PUTCOLOR. No byte of the frame buffer changes; the receiver's units write
`esc`, `col`, `cidx`, `tag`, `ready`; SYNC the Cursor and `ready`; every other unit the queue, `ready`,
and the one setting it names (READY `ready_owed`, BTN the reported table and not `ready`). -/
def Obligations.UnitsWriteOnlyTheirOwn : Prop :=
  ∀ (i : Instr) (s t : State), exec i s = .next t →
    match i with
    | .color _ | .litff | .rsvd _ =>
      (∀ a, t.fb.read a = s.fb.read a) ∧
      t = { s with esc := t.esc, col := t.col, cidx := t.cidx, tag := t.tag, ready := t.ready }
    | .sync => (∀ a, t.fb.read a = s.fb.read a) ∧ t = { s with cx := t.cx, cy := t.cy, ready := t.ready }
    | .getbr | .getacs | .getacv | .rbr _ | .racs _ | .racv _ _ _ =>
      (∀ a, t.fb.read a = s.fb.read a) ∧ t = { s with rq := t.rq, ready := t.ready }
    | .setbr _ =>
      (∀ a, t.fb.read a = s.fb.read a) ∧ t = { s with rq := t.rq, ready := t.ready, brightness := t.brightness }
    | .setacs _ =>
      (∀ a, t.fb.read a = s.fb.read a) ∧ t = { s with rq := t.rq, ready := t.ready, accelEnabled := t.accelEnabled }
    | .setnum _ _ _ =>
      (∀ a, t.fb.read a = s.fb.read a) ∧ t = { s with rq := t.rq, ready := t.ready, numberDisplay := t.numberDisplay }
    | .ready =>
      (∀ a, t.fb.read a = s.fb.read a) ∧ t = { s with rq := t.rq, ready := t.ready, readyOwed := t.readyOwed }
    | .btn n _ =>
      (∀ a, t.fb.read a = s.fb.read a) ∧ t = { s with rq := t.rq, btnReported := t.btnReported } ∧
      ∀ m : Fin 6, m ≠ n → t.btnReported[m] = s.btnReported[m]
    | .putcolor _ _ _ => True

/-! ### Response Queue -/

/-- R162 and R163: a push to a full queue, and a packet longer than the free space, are rejected and change
nothing; else the byte, the whole packet, is appended. -/
def Obligations.QueuePushesWholeOrRejects : Prop :=
  ∀ (b : Byte) (p : List Byte) (s : State),
    (s.rq.length = s.cfg.rqCapacity → rqPush b s = none) ∧
    (s.rq.length < s.cfg.rqCapacity → rqPush b s = some { s with rq := s.rq ++ [b] }) ∧
    (rqFree s < p.length → rqPushPacket p s = none) ∧
    (p.length ≤ rqFree s → rqPushPacket p s = some { s with rq := s.rq ++ p })

/-- 43_response_queue.md R164: the poller sends the oldest byte when the channel can take it, one byte a
step, and nothing when the queue is empty or `tx_ready` is false. The model's choices: that a move of the
poller where it is not enabled is a step that only uses up the move (entry 24), and that the poller still
sends after the session has ended, which R173 leaves open (entry 16). -/
def Obligations.PollerSendsOldestByte : Prop :=
  ∀ (s : State) (ms : List Move), s.moves = .txd :: ms →
    (∀ (b : Byte) (rest : List Byte), s.txReady = true → s.rq = b :: rest →
      step s = .next { s with moves := ms, rq := rest, d2h := s.d2h ++ [b] }) ∧
    (s.txReady = false ∨ s.rq = [] → step s = .next { s with moves := ms })

/-- 43_response_queue.md R165: no move but the host's own read takes a byte away from what is sent and
queued, reorders it or puts one inside it: bytes are only added at its end. -/
def Obligations.ResponseBytesLeaveInOrder : Prop :=
  ∀ (m : Move) (s t : State), m ≠ .hostRead → runMove m s = .next t →
    ∃ p, t.d2h ++ t.rq = s.d2h ++ s.rq ++ p

/-- 43_response_queue.md R169, 42_commands.md R135: while Ready is owed no step puts anything into the
queue but the owed `0x78`, and the step that does is the one that clears the debt. 70_reset_and_hazards.md R246: in
every infinite run in which the dispatcher keeps taking steps and the channel keeps accepting bytes, the owed
Ready does enter the queue, and until then nothing else does. That the poller takes its step where the channel
accepts is DEDUCED (entry 28). -/
def Obligations.OwedReadyEntersQueueFirst : Prop :=
  (∀ s t : State, s.readyOwed = true → step s = .next t →
    (t.readyOwed = true ∧ (t.rq = s.rq ∨ ∃ b, s.rq = b :: t.rq)) ∨
    (t.readyOwed = false ∧ t.rq = s.rq ++ [0x78#8])) ∧
  (∀ (m : Nat → Move) (r : Nat → State) (n : Nat), IsRun m r → dispatcherFair m r → channelFair m r →
    8 ≤ (r n).cfg.rqCapacity → (r n).running = true → (r n).readyOwed = true →
    ∃ k, n ≤ k ∧ (∀ j, n ≤ j → j ≤ k → (r j).readyOwed = true ∧ ∃ p, (r n).rq = p ++ (r j).rq) ∧
      m k = .disp ∧ (r (k + 1)).readyOwed = false ∧ (r (k + 1)).rq = (r k).rq ++ [0x78#8])

/-- 43_response_queue.md R167, 42_commands.md R143: a wire command in flight, however full the queue, is
executed at the first dispatcher step after the queue has drained: it is consumed, what was queued has been sent, and
the queue holds its whole response and nothing else: the packet of a Get command, one `0x78` for a Set
command, nothing for SyncCoords, which has no response (R136 to R142).
70_reset_and_hazards.md R246: in every infinite run in which the dispatcher keeps taking steps and the channel
keeps accepting bytes, a wire command in flight stays in flight until it is executed, consumed and its whole response
appended, unless the session ends first (44_buttons_and_session.md R184) or three colour components overwrite it (R235).
That the poller takes its step where the channel accepts is DEDUCED (entry 28). -/
def Obligations.DeferredCommandAnsweredAfterDrain : Prop :=
  (∀ (s : State) (n : Nat), s.running = true → s.readyOwed = false → s.ready = true → s.tag ≠ .putcolor →
    s.txReady = true → 8 ≤ s.cfg.rqCapacity → s.rq.length ≤ n →
    ∃ t, dispTurn (drain n s) = .next t ∧ t.ready = false ∧ t.d2h = s.d2h ++ s.rq ∧
      t.rq = responseOf s) ∧
  (∀ (m : Nat → Move) (r : Nat → State) (n : Nat), IsRun m r → dispatcherFair m r → channelFair m r →
    8 ≤ (r n).cfg.rqCapacity → (r n).readyOwed = false → (r n).ready = true → (r n).tag ≠ .putcolor →
    ∃ k, n ≤ k ∧ (∀ j, n ≤ j → j < k → (r j).ready = true ∧ (r j).tag = (r n).tag) ∧ (r k).ready = true ∧
      ((r k).running = false ∨ (r k).tag = .putcolor ∨
        ((r k).tag = (r n).tag ∧ m k = .disp ∧ (r (k + 1)).ready = false ∧
          (r (k + 1)).rq = (r k).rq ++ responseOf (r k))))

/-- 10_state.md R20, 43_response_queue.md R172: the ring form refines the abstract sequence: a push is
rejected exactly when the sequence is full and else appends, a pop gives its first byte, both keep the
ring's ranges and capacity, wherever the bytes lie. -/
def Obligations.RingRefinesQueue : Prop :=
  ∀ r : Ring, ringWf r = true →
    (ringSeq r).length = r.cnt ∧
    (∀ b, r.cnt = r.mem.length → ringPush b r = none) ∧
    (∀ b, r.cnt < r.mem.length → ∃ q, ringPush b r = some q ∧ ringWf q = true ∧
      q.mem.length = r.mem.length ∧ ringSeq q = ringSeq r ++ [b]) ∧
    (r.cnt = 0 → ringPop r = none) ∧
    (0 < r.cnt → ∃ b q, ringPop r = some (b, q) ∧ ringWf q = true ∧
      q.mem.length = r.mem.length ∧ ringSeq r = b :: ringSeq q)

/-! ### Buttons and session -/

/-- R181: an idle dispatcher step counts, and at the interval polls the button whose turn it is and passes
the turn on, whether or not an event was queued; the exit check follows. -/
def Obligations.IdleStepPollsRoundRobin : Prop :=
  ∀ s : State, s.running = true → s.readyOwed = false → s.ready = false →
    (s.btnCtr + 1 ≠ s.cfg.btnPollInterval →
      dispTurn s = .next (exitCheck { s with btnCtr := s.btnCtr + 1 })) ∧
    (s.btnCtr + 1 = s.cfg.btnPollInterval →
      ∃ t, exec (.btn s.btnIdx s.btnLive[s.btnIdx]) { s with btnCtr := 0 } = .next t ∧ t.btnCtr = 0 ∧
        dispTurn s = .next (exitCheck { t with btnIdx := ⟨(s.btnIdx.val + 1) % 6, by omega⟩ }))

/-- 44_buttons_and_session.md R180: while a command is in flight or Ready is owed no dispatcher step polls
a button: counter, index and reported table stay. -/
def Obligations.NoButtonPolledWhileBusy : Prop :=
  ∀ s t : State, (s.ready = true ∨ s.readyOwed = true) → dispTurn s = .next t →
    t.btnCtr = s.btnCtr ∧ t.btnIdx = s.btnIdx ∧ t.btnReported = s.btnReported

/-- 44_buttons_and_session.md R184: the exit check counts; at the interval it looks at the live states of buttons
4 and 5, and only if both are pressed are the settings persisted and the session ended. It ends every dispatcher step
but the Ready retry, whether or not a command is in flight (42_commands.md R130). That it also ends the step
whose PUTCOLOR completes a frame, after which Ready is owed, is the model's reading of the two rules, DEDUCED
(entry 15). -/
def Obligations.ExitCheckEndsSessionOnBothButtons : Prop :=
  ∀ s : State,
    (s.exitCtr + 1 ≠ s.cfg.exitPollInterval → exitCheck s = { s with exitCtr := s.exitCtr + 1 }) ∧
    (s.exitCtr + 1 = s.cfg.exitPollInterval → s.btnLive[4] = true ∧ s.btnLive[5] = true →
      exitCheck s = { s with
        exitCtr := 0, running := false, saved := some (s.brightness, s.accelEnabled) }) ∧
    (s.exitCtr + 1 = s.cfg.exitPollInterval → ¬(s.btnLive[4] = true ∧ s.btnLive[5] = true) →
      exitCheck s = { s with exitCtr := 0 }) ∧
    (s.running = true → s.readyOwed = false →
      dispTurn s = mapNext exitCheck (if s.ready then exec (slotInstr s) s else idleTurn s)) ∧
    (s.running = true → s.readyOwed = true → dispTurn s = exec .ready s)

/-- 44_buttons_and_session.md R186, 43_response_queue.md R173: after the session has ended no step changes
the block's state but the leftover of the queue: only the host's and the environment's side, what is on
the wires, and the head of `rq` can still move (how much of `rq` still goes out is open: entry 16), and nothing
sets `running` again. -/
def Obligations.BlockFrozenAfterSessionEnd : Prop :=
  ∀ s t : State, s.running = false → step s = .next t →
    t = { s with
      rq := t.rq, d2h := t.d2h, h2d := t.h2d, sender := t.sender, channelOpen := t.channelOpen
      btnLive := t.btnLive, ax := t.ax, ay := t.ay, az := t.az, txReady := t.txReady
      moves := t.moves, tick := t.tick } ∧
    (t.rq = s.rq ∨ ∃ b, s.rq = b :: t.rq ∧ t.d2h = s.d2h ++ [b]) ∧
    ∃ p, t.h2d = s.h2d ++ p

/-! ### Host -/

/-- R196 and R195: `send` writes the whole of `encode(F)`, in order, and then reads. -/
def Obligations.SendWritesWholeFrame : Prop :=
  ∀ (f : Frame) (s : State), frameFits s.cfg f = true → s.channelOpen = true → sending s = false →
    ∃ t, hostSendTurn f s = .next t ∧
      hostWriteTurn^[(encodeFrame f).length] t = { s with h2d := s.h2d ++ encodeFrame f, sender := .reading }

/-- R197: the read loop of `send` ends at the first `0x78` and discards any other byte. -/
def Obligations.ReadLoopEndsAtReady : Prop :=
  ∀ (b : Byte) (rest : List Byte) (s : State), s.channelOpen = true → s.sender = .reading → s.d2h = b :: rest →
    (b = 0x78#8 → hostReadTurn s = { s with d2h := rest, sender := .finished .ok }) ∧
    (b ≠ 0x78#8 → hostReadTurn s = { s with d2h := rest })

/-- 45_frame_sender.md R198, R200, 95_test_vectors.md S3: an error or timeout in `send`, in the write or in the
read loop, gives DeviceOffline and the device sees nothing of it; closing flushes what is still to be written, so
that a begun frame is never truncated. The model's choices (entry 18): that a `send` under way at a
close then ends with DeviceOffline, and that after an error in the write the rest of the frame is not written;
and (entry 24) that an error with no `send` under way, and a close of a closed channel, change nothing. -/
def Obligations.FailureIsHostSideAndCloseFlushes : Prop :=
  ∀ s : State,
    (∀ rest : List Byte, s.sender = .writing rest →
      hostFailTurn s = { s with sender := .finished .deviceOffline } ∧
      (s.channelOpen = true → hostCloseTurn s =
        { s with h2d := s.h2d ++ rest, channelOpen := false, sender := .finished .deviceOffline })) ∧
    (s.sender = .reading →
      hostFailTurn s = { s with sender := .finished .deviceOffline } ∧
      (s.channelOpen = true → hostCloseTurn s =
        { s with channelOpen := false, sender := .finished .deviceOffline })) ∧
    (s.sender = .idle ∨ (∃ r, s.sender = .finished r) →
      hostFailTurn s = s ∧ (s.channelOpen = true → hostCloseTurn s = { s with channelOpen := false })) ∧
    (s.channelOpen = false → hostCloseTurn s = s)

/-! ### The machine -/

/-- 41_receiver.md R100, 60_exceptions.md R215: when the receive interrupt is taken, whatever the byte (an
argument, the escape byte, a tag, a colour), the step is `rx_step` of that byte with the byte taken from the
channel. 41_receiver.md R101, R104, 92 D1: with no argument awaited, where the pending escape and the byte are a
unit the receiver executes (COLOR, LITFF, RSVD), that step is `exec` of the unit. -/
def Obligations.StepRunsReceivedUnit : Prop :=
  ∀ (s : State) (ms : List Move) (b : Byte) (bs : List Byte),
    s.moves = .rx :: ms → s.running = true → s.h2d = b :: bs →
    step s = receive b { s with moves := ms, h2d := bs } ∧
    ∀ i : Instr, s.argn = 0 → decode (unitBytes b s) = .ok (i, []) →
      ((∃ v, i = .color v) ∨ i = .litff ∨ ∃ t, i = .rsvd t) →
      step s = exec i { s with moves := ms, h2d := bs }

/-- 42_commands.md R130: when the dispatcher moves with a command in the slot and no Ready owed, the step is
`exec` of the command in the slot, and then the exit check. For a PUTCOLOR that completes the frame, after
which Ready is owed, that the exit check follows is the model's reading, DEDUCED (entry 15). -/
def Obligations.StepRunsCommandInSlot : Prop :=
  ∀ (s : State) (ms : List Move), s.moves = .disp :: ms → s.running = true → s.readyOwed = false →
    s.ready = true →
    step s = mapNext exitCheck (exec (slotInstr s) { s with moves := ms })

/-- 10_state.md section 8: every step keeps the invariant `Inv`: I1 to I5, I7 and I8 of R28, of I6 that `tag` is
one of the eight values, and the model's own clauses (counters in range, the frame buffer's form and addresses, legal
parameters). The second half of I6, that the argument registers of a ready command have been written since its
tag was accepted, speaks of the past and is no predicate of one state; it is not in `Inv`, and
AwaitedArgumentsCompleteTheCommand states it of the receipt. -/
def Obligations.InvariantKeptByEveryStep : Prop :=
  ∀ s t : State, Inv s → step s = .next t → Inv t

/-- 10_state.md sections 8 and 13: the invariant `Inv` holds after reset, for every legal choice of the parameters. -/
def Obligations.InvariantHoldsAtReset : Prop :=
  (∀ c : Config, c.legal = true → Inv (State.resetWith c)) ∧ Inv State.reset

/-- R33: the values the spec gives for reset, for every choice of the parameters. -/
def Obligations.ResetLeavesTheTableOfValues : Prop :=
  ∀ c : Config,
    let s := State.resetWith c
    s.esc = false ∧ s.argn = 0 ∧ s.ready = false ∧ s.cidx = 0 ∧ s.cx = 0 ∧ s.cy = 0 ∧ s.rq = [] ∧
    s.brightness = c.brightnessInit ∧ s.accelEnabled = c.accelInit ∧
    (∀ i : Fin 6, s.btnReported[i] = false) ∧ s.btnIdx = 0 ∧ s.btnCtr = 0 ∧ s.exitCtr = 0 ∧
    s.running = true ∧ s.readyOwed = false ∧ s.h2d = [] ∧ s.d2h = [] ∧
    (c.legal = true → c.brMin.toNat ≤ s.brightness.toNat ∧ s.brightness.toNat ≤ c.brMax.toNat)

/-- 10_state.md R30: no step changes the parameters. -/
def Obligations.ParametersFixedForTheRun : Prop :=
  ∀ s t : State, step s = .next t → t.cfg = s.cfg

/-- 10_state.md R29, 42_commands.md R132: a dispatcher step makes no write to the receiver's state but
clearing `ready`, and touches neither wire. -/
def Obligations.DispatcherOnlyClearsReady : Prop :=
  ∀ s t : State, dispTurn s = .next t →
    t.esc = s.esc ∧ t.argn = s.argn ∧ t.tag = s.tag ∧ t.args = s.args ∧ t.cidx = s.cidx ∧ t.col = s.col ∧
    (t.ready = s.ready ∨ t.ready = false) ∧ t.h2d = s.h2d ∧ t.d2h = s.d2h

/-- 42_commands.md R133, R135, R146, 92 D32: the display is latched only by the step that completes a frame:
then Ready is owed, the Cursor is (0, 0), and what is shown is the frame buffer of that step. -/
def Obligations.LatchOnlyAtFrameCompletion : Prop :=
  ∀ s t : State, step s = .next t →
    (t.frames = s.frames ∧ t.shown = s.shown) ∨
    (t.frames = s.frames + 1 ∧ t.shown = t.fb ∧ s.readyOwed = false ∧ t.readyOwed = true ∧ t.cx = 0 ∧ t.cy = 0)

/-- 20_memory.md R40 (a), 10_state.md R18: the frame buffer changes only in a dispatcher step that executes
a PUTCOLOR. -/
def Obligations.FrameBufferWrittenOnlyByPutcolor : Prop :=
  ∀ s t : State, step s = .next t → t.fb ≠ s.fb →
    (drawMove s).1 = .disp ∧ s.running = true ∧ s.readyOwed = false ∧ s.ready = true ∧ s.tag = .putcolor

/-- 60_exceptions.md R205, 41_receiver.md R114: from every state that keeps the invariant a step goes on; the
one thing refused is a host's `send` of a frame of the wrong size, which is no input (40_encoder.md R95). -/
def Obligations.BlockNeverFaults : Prop :=
  ∀ s : State, Inv s → (∃ t, step s = .next t) ∨
    (step s = .refused .frameDimensions ∧ ∃ f, (drawMove s).1 = .hostSend f ∧ frameFits s.cfg f = false)

/-- 40_encoder.md R97 (with 70_reset_and_hazards.md R234, R242): the round trip. From a unit boundary with
nothing in flight, the bytes of `encode(F)` received with the pacing of R234 leave every component of
the frame, scaled with the brightness, at its place in the frame buffer; the frame is latched once and
shown, the Cursor is (0, 0), and one `0x78` has been queued. The premises: the session is not being
ended by the exit buttons, no Ready is owed, and the queue has room for the Ready. -/
def Obligations.FrameRoundTrip : Prop :=
  ∀ (f : Frame) (s : State), s.cfg.legal = true → frameFits s.cfg f = true → s.running = true →
    s.argn = 0 → s.esc = false → s.ready = false → s.readyOwed = false →
    (s.cfg.syncResetsCidx = false → s.cidx = 0) →
    ¬(s.btnLive[4] = true ∧ s.btnLive[5] = true) → 1 ≤ rqFree s →
    ∃ t, pacedReceive (encodeFrame f) s = .next t ∧
      (∀ (x y : Nat) (p : Pixel) (c : Fin 3), pixelAt f x y = some p →
        fbRead x y c.val t = some (Config.scale s.brightness (pixelComponent p c))) ∧
      t.frames = s.frames + 1 ∧ t.shown = t.fb ∧ t.cx = 0 ∧ t.cy = 0 ∧ t.cidx = 0 ∧
      t.rq = s.rq ++ [0x78#8] ∧ t.ready = false ∧ t.readyOwed = false ∧ t.running = true
end

