-- ==== Sys2Proof/Laws/Memory.lean ====
section
/-! SUPPORT. The laws of memory: a read after a write, and the canonical form kept. -/

namespace Sys2Proof.Machine

@[simp] theorem Memory.read_nil (a : Nat) : Memory.read [] a = none := rfl

theorem Memory.read_write_self (m : Memory) (a : Nat) (v : Byte) : (m.write a v).read a = some v := by
  induction m with
  | nil => simp [Memory.write, Memory.read]
  | cons p m ih =>
    obtain ⟨b, w⟩ := p
    rcases lt_trichotomy a b with h | h | h
    · simp [Memory.write, Memory.read, h]
    · simp [Memory.write, Memory.read, h]
    · simp [Memory.write, Memory.read, h.not_gt, h.ne', ih]

theorem Memory.read_write_other (m : Memory) {a b : Nat} (v : Byte) (h : b ≠ a) :
    (m.write a v).read b = m.read b := by
  induction m with
  | nil => simp [Memory.write, Memory.read, h]
  | cons p m ih =>
    obtain ⟨c, w⟩ := p
    rcases lt_trichotomy a c with hc | hc | hc
    · simp [Memory.write, Memory.read, hc, h]
    · subst hc; simp [Memory.write, Memory.read, h]
    · simp [Memory.write, Memory.read, hc.not_gt, hc.ne', ih]

/-- The addresses of a written memory: the old ones and the one written. -/
theorem Memory.mem_write {m : Memory} {a : Nat} {v : Byte} {p : Host.Cell} (h : p ∈ m.write a v) :
    p.1 = a ∨ p ∈ m := by
  induction m with
  | nil => simp [Memory.write] at h; simp [h]
  | cons q m ih =>
    obtain ⟨c, w⟩ := q
    rcases lt_trichotomy a c with hc | hc | hc
    · simp only [Memory.write, hc, if_true, List.mem_cons] at h ⊢
      rcases h with h | h | h <;> simp [h]
    · subst hc
      simp only [Memory.write, lt_irrefl, if_false, if_true, List.mem_cons] at h ⊢
      rcases h with h | h <;> simp [h]
    · simp only [Memory.write, hc.not_gt, hc.ne', if_false, List.mem_cons] at h ⊢
      rcases h with h | h
      · simp [h]
      · rcases ih h with h | h <;> simp [h]

/-- A write keeps the canonical form. -/
theorem Memory.wf_write {m : Memory} (h : m.wf) (a : Nat) (v : Byte) : (m.write a v).wf := by
  induction m with
  | nil => simp [Memory.write, Memory.wf]
  | cons p m ih =>
    obtain ⟨c, w⟩ := p
    obtain ⟨hc, hm⟩ := List.pairwise_cons.1 h
    rcases lt_trichotomy a c with hlt | rfl | hgt
    · simp only [Memory.write, hlt, if_true]
      refine List.pairwise_cons.2 ⟨fun q hq => ?_, h⟩
      rcases List.mem_cons.1 hq with rfl | hq
      · exact hlt
      · exact hlt.trans (hc q hq)
    · simp only [Memory.write, lt_irrefl, if_false, if_true]
      exact List.pairwise_cons.2 ⟨hc, hm⟩
    · simp only [Memory.write, hgt.not_gt, hgt.ne', if_false]
      refine List.pairwise_cons.2 ⟨fun q hq => ?_, ih hm⟩
      rcases Memory.mem_write hq with h' | hq
      · exact h' ▸ hgt
      · exact hc q hq

/-- The one store of the machine keeps the canonical form of the frame buffer. -/
theorem fbWrite_wf {m : Memory} (h : m.wf) (s : State) (c : Nat) (v : Byte) : (fbWrite s c v m).wf :=
  Memory.wf_write h _ v

/-- The frame buffer after reset is canonical. -/
theorem reset_fb_wf (c : Config) : (State.resetWith c).fb.wf := List.Pairwise.nil

end Sys2Proof.Machine
end

