-- ==== Sys2Proof/Laws/State.lean ====
section
/-! SUPPORT. One lemma per field for each named update of State, so that no later proof unfolds a
record update. -/

namespace Sys2Proof.Machine

/-! ### `consume` -/

@[simp] theorem consume_cfg (s : State) : (consume s).cfg = s.cfg := rfl
@[simp] theorem consume_esc (s : State) : (consume s).esc = s.esc := rfl
@[simp] theorem consume_argn (s : State) : (consume s).argn = s.argn := rfl
@[simp] theorem consume_tag (s : State) : (consume s).tag = s.tag := rfl
@[simp] theorem consume_ready (s : State) : (consume s).ready = false := rfl
@[simp] theorem consume_args (s : State) : (consume s).args = s.args := rfl
@[simp] theorem consume_cidx (s : State) : (consume s).cidx = s.cidx := rfl
@[simp] theorem consume_col (s : State) : (consume s).col = s.col := rfl
@[simp] theorem consume_cx (s : State) : (consume s).cx = s.cx := rfl
@[simp] theorem consume_cy (s : State) : (consume s).cy = s.cy := rfl
@[simp] theorem consume_fb (s : State) : (consume s).fb = s.fb := rfl
@[simp] theorem consume_rq (s : State) : (consume s).rq = s.rq := rfl
@[simp] theorem consume_brightness (s : State) : (consume s).brightness = s.brightness := rfl
@[simp] theorem consume_accelEnabled (s : State) : (consume s).accelEnabled = s.accelEnabled := rfl
@[simp] theorem consume_numberDisplay (s : State) : (consume s).numberDisplay = s.numberDisplay := rfl
@[simp] theorem consume_btnReported (s : State) : (consume s).btnReported = s.btnReported := rfl
@[simp] theorem consume_btnIdx (s : State) : (consume s).btnIdx = s.btnIdx := rfl
@[simp] theorem consume_btnCtr (s : State) : (consume s).btnCtr = s.btnCtr := rfl
@[simp] theorem consume_exitCtr (s : State) : (consume s).exitCtr = s.exitCtr := rfl
@[simp] theorem consume_running (s : State) : (consume s).running = s.running := rfl
@[simp] theorem consume_readyOwed (s : State) : (consume s).readyOwed = s.readyOwed := rfl
@[simp] theorem consume_btnLive (s : State) : (consume s).btnLive = s.btnLive := rfl
@[simp] theorem consume_ax (s : State) : (consume s).ax = s.ax := rfl
@[simp] theorem consume_ay (s : State) : (consume s).ay = s.ay := rfl
@[simp] theorem consume_az (s : State) : (consume s).az = s.az := rfl
@[simp] theorem consume_txReady (s : State) : (consume s).txReady = s.txReady := rfl
@[simp] theorem consume_h2d (s : State) : (consume s).h2d = s.h2d := rfl
@[simp] theorem consume_d2h (s : State) : (consume s).d2h = s.d2h := rfl
@[simp] theorem consume_sender (s : State) : (consume s).sender = s.sender := rfl
@[simp] theorem consume_channelOpen (s : State) : (consume s).channelOpen = s.channelOpen := rfl
@[simp] theorem consume_frames (s : State) : (consume s).frames = s.frames := rfl
@[simp] theorem consume_shown (s : State) : (consume s).shown = s.shown := rfl
@[simp] theorem consume_saved (s : State) : (consume s).saved = s.saved := rfl
@[simp] theorem consume_moves (s : State) : (consume s).moves = s.moves := rfl
@[simp] theorem consume_tick (s : State) : (consume s).tick = s.tick := rfl

/-! ### `clearEsc` -/

@[simp] theorem clearEsc_cfg (s : State) : (clearEsc s).cfg = s.cfg := rfl
@[simp] theorem clearEsc_esc (s : State) : (clearEsc s).esc = false := rfl
@[simp] theorem clearEsc_argn (s : State) : (clearEsc s).argn = s.argn := rfl
@[simp] theorem clearEsc_tag (s : State) : (clearEsc s).tag = s.tag := rfl
@[simp] theorem clearEsc_ready (s : State) : (clearEsc s).ready = s.ready := rfl
@[simp] theorem clearEsc_args (s : State) : (clearEsc s).args = s.args := rfl
@[simp] theorem clearEsc_cidx (s : State) : (clearEsc s).cidx = s.cidx := rfl
@[simp] theorem clearEsc_col (s : State) : (clearEsc s).col = s.col := rfl
@[simp] theorem clearEsc_cx (s : State) : (clearEsc s).cx = s.cx := rfl
@[simp] theorem clearEsc_cy (s : State) : (clearEsc s).cy = s.cy := rfl
@[simp] theorem clearEsc_fb (s : State) : (clearEsc s).fb = s.fb := rfl
@[simp] theorem clearEsc_rq (s : State) : (clearEsc s).rq = s.rq := rfl
@[simp] theorem clearEsc_brightness (s : State) : (clearEsc s).brightness = s.brightness := rfl
@[simp] theorem clearEsc_accelEnabled (s : State) : (clearEsc s).accelEnabled = s.accelEnabled := rfl
@[simp] theorem clearEsc_numberDisplay (s : State) : (clearEsc s).numberDisplay = s.numberDisplay := rfl
@[simp] theorem clearEsc_btnReported (s : State) : (clearEsc s).btnReported = s.btnReported := rfl
@[simp] theorem clearEsc_btnIdx (s : State) : (clearEsc s).btnIdx = s.btnIdx := rfl
@[simp] theorem clearEsc_btnCtr (s : State) : (clearEsc s).btnCtr = s.btnCtr := rfl
@[simp] theorem clearEsc_exitCtr (s : State) : (clearEsc s).exitCtr = s.exitCtr := rfl
@[simp] theorem clearEsc_running (s : State) : (clearEsc s).running = s.running := rfl
@[simp] theorem clearEsc_readyOwed (s : State) : (clearEsc s).readyOwed = s.readyOwed := rfl
@[simp] theorem clearEsc_btnLive (s : State) : (clearEsc s).btnLive = s.btnLive := rfl
@[simp] theorem clearEsc_ax (s : State) : (clearEsc s).ax = s.ax := rfl
@[simp] theorem clearEsc_ay (s : State) : (clearEsc s).ay = s.ay := rfl
@[simp] theorem clearEsc_az (s : State) : (clearEsc s).az = s.az := rfl
@[simp] theorem clearEsc_txReady (s : State) : (clearEsc s).txReady = s.txReady := rfl
@[simp] theorem clearEsc_h2d (s : State) : (clearEsc s).h2d = s.h2d := rfl
@[simp] theorem clearEsc_d2h (s : State) : (clearEsc s).d2h = s.d2h := rfl
@[simp] theorem clearEsc_sender (s : State) : (clearEsc s).sender = s.sender := rfl
@[simp] theorem clearEsc_channelOpen (s : State) : (clearEsc s).channelOpen = s.channelOpen := rfl
@[simp] theorem clearEsc_frames (s : State) : (clearEsc s).frames = s.frames := rfl
@[simp] theorem clearEsc_shown (s : State) : (clearEsc s).shown = s.shown := rfl
@[simp] theorem clearEsc_saved (s : State) : (clearEsc s).saved = s.saved := rfl
@[simp] theorem clearEsc_moves (s : State) : (clearEsc s).moves = s.moves := rfl
@[simp] theorem clearEsc_tick (s : State) : (clearEsc s).tick = s.tick := rfl

/-! ### `cursorHome` -/

@[simp] theorem cursorHome_cfg (s : State) : (cursorHome s).cfg = s.cfg := rfl
@[simp] theorem cursorHome_esc (s : State) : (cursorHome s).esc = s.esc := rfl
@[simp] theorem cursorHome_argn (s : State) : (cursorHome s).argn = s.argn := rfl
@[simp] theorem cursorHome_tag (s : State) : (cursorHome s).tag = s.tag := rfl
@[simp] theorem cursorHome_ready (s : State) : (cursorHome s).ready = s.ready := rfl
@[simp] theorem cursorHome_args (s : State) : (cursorHome s).args = s.args := rfl
@[simp] theorem cursorHome_cidx (s : State) : (cursorHome s).cidx = s.cidx := rfl
@[simp] theorem cursorHome_col (s : State) : (cursorHome s).col = s.col := rfl
@[simp] theorem cursorHome_cx (s : State) : (cursorHome s).cx = 0 := rfl
@[simp] theorem cursorHome_cy (s : State) : (cursorHome s).cy = 0 := rfl
@[simp] theorem cursorHome_fb (s : State) : (cursorHome s).fb = s.fb := rfl
@[simp] theorem cursorHome_rq (s : State) : (cursorHome s).rq = s.rq := rfl
@[simp] theorem cursorHome_brightness (s : State) : (cursorHome s).brightness = s.brightness := rfl
@[simp] theorem cursorHome_accelEnabled (s : State) : (cursorHome s).accelEnabled = s.accelEnabled := rfl
@[simp] theorem cursorHome_numberDisplay (s : State) : (cursorHome s).numberDisplay = s.numberDisplay := rfl
@[simp] theorem cursorHome_btnReported (s : State) : (cursorHome s).btnReported = s.btnReported := rfl
@[simp] theorem cursorHome_btnIdx (s : State) : (cursorHome s).btnIdx = s.btnIdx := rfl
@[simp] theorem cursorHome_btnCtr (s : State) : (cursorHome s).btnCtr = s.btnCtr := rfl
@[simp] theorem cursorHome_exitCtr (s : State) : (cursorHome s).exitCtr = s.exitCtr := rfl
@[simp] theorem cursorHome_running (s : State) : (cursorHome s).running = s.running := rfl
@[simp] theorem cursorHome_readyOwed (s : State) : (cursorHome s).readyOwed = s.readyOwed := rfl
@[simp] theorem cursorHome_btnLive (s : State) : (cursorHome s).btnLive = s.btnLive := rfl
@[simp] theorem cursorHome_ax (s : State) : (cursorHome s).ax = s.ax := rfl
@[simp] theorem cursorHome_ay (s : State) : (cursorHome s).ay = s.ay := rfl
@[simp] theorem cursorHome_az (s : State) : (cursorHome s).az = s.az := rfl
@[simp] theorem cursorHome_txReady (s : State) : (cursorHome s).txReady = s.txReady := rfl
@[simp] theorem cursorHome_h2d (s : State) : (cursorHome s).h2d = s.h2d := rfl
@[simp] theorem cursorHome_d2h (s : State) : (cursorHome s).d2h = s.d2h := rfl
@[simp] theorem cursorHome_sender (s : State) : (cursorHome s).sender = s.sender := rfl
@[simp] theorem cursorHome_channelOpen (s : State) : (cursorHome s).channelOpen = s.channelOpen := rfl
@[simp] theorem cursorHome_frames (s : State) : (cursorHome s).frames = s.frames := rfl
@[simp] theorem cursorHome_shown (s : State) : (cursorHome s).shown = s.shown := rfl
@[simp] theorem cursorHome_saved (s : State) : (cursorHome s).saved = s.saved := rfl
@[simp] theorem cursorHome_moves (s : State) : (cursorHome s).moves = s.moves := rfl
@[simp] theorem cursorHome_tick (s : State) : (cursorHome s).tick = s.tick := rfl

/-! ### `latchFrame` -/

@[simp] theorem latchFrame_cfg (s : State) : (latchFrame s).cfg = s.cfg := rfl
@[simp] theorem latchFrame_esc (s : State) : (latchFrame s).esc = s.esc := rfl
@[simp] theorem latchFrame_argn (s : State) : (latchFrame s).argn = s.argn := rfl
@[simp] theorem latchFrame_tag (s : State) : (latchFrame s).tag = s.tag := rfl
@[simp] theorem latchFrame_ready (s : State) : (latchFrame s).ready = s.ready := rfl
@[simp] theorem latchFrame_args (s : State) : (latchFrame s).args = s.args := rfl
@[simp] theorem latchFrame_cidx (s : State) : (latchFrame s).cidx = s.cidx := rfl
@[simp] theorem latchFrame_col (s : State) : (latchFrame s).col = s.col := rfl
@[simp] theorem latchFrame_cx (s : State) : (latchFrame s).cx = s.cx := rfl
@[simp] theorem latchFrame_cy (s : State) : (latchFrame s).cy = s.cy := rfl
@[simp] theorem latchFrame_fb (s : State) : (latchFrame s).fb = s.fb := rfl
@[simp] theorem latchFrame_rq (s : State) : (latchFrame s).rq = s.rq := rfl
@[simp] theorem latchFrame_brightness (s : State) : (latchFrame s).brightness = s.brightness := rfl
@[simp] theorem latchFrame_accelEnabled (s : State) : (latchFrame s).accelEnabled = s.accelEnabled := rfl
@[simp] theorem latchFrame_numberDisplay (s : State) : (latchFrame s).numberDisplay = s.numberDisplay := rfl
@[simp] theorem latchFrame_btnReported (s : State) : (latchFrame s).btnReported = s.btnReported := rfl
@[simp] theorem latchFrame_btnIdx (s : State) : (latchFrame s).btnIdx = s.btnIdx := rfl
@[simp] theorem latchFrame_btnCtr (s : State) : (latchFrame s).btnCtr = s.btnCtr := rfl
@[simp] theorem latchFrame_exitCtr (s : State) : (latchFrame s).exitCtr = s.exitCtr := rfl
@[simp] theorem latchFrame_running (s : State) : (latchFrame s).running = s.running := rfl
@[simp] theorem latchFrame_readyOwed (s : State) : (latchFrame s).readyOwed = s.readyOwed := rfl
@[simp] theorem latchFrame_btnLive (s : State) : (latchFrame s).btnLive = s.btnLive := rfl
@[simp] theorem latchFrame_ax (s : State) : (latchFrame s).ax = s.ax := rfl
@[simp] theorem latchFrame_ay (s : State) : (latchFrame s).ay = s.ay := rfl
@[simp] theorem latchFrame_az (s : State) : (latchFrame s).az = s.az := rfl
@[simp] theorem latchFrame_txReady (s : State) : (latchFrame s).txReady = s.txReady := rfl
@[simp] theorem latchFrame_h2d (s : State) : (latchFrame s).h2d = s.h2d := rfl
@[simp] theorem latchFrame_d2h (s : State) : (latchFrame s).d2h = s.d2h := rfl
@[simp] theorem latchFrame_sender (s : State) : (latchFrame s).sender = s.sender := rfl
@[simp] theorem latchFrame_channelOpen (s : State) : (latchFrame s).channelOpen = s.channelOpen := rfl
@[simp] theorem latchFrame_frames (s : State) : (latchFrame s).frames = s.frames + 1 := rfl
@[simp] theorem latchFrame_shown (s : State) : (latchFrame s).shown = s.fb := rfl
@[simp] theorem latchFrame_saved (s : State) : (latchFrame s).saved = s.saved := rfl
@[simp] theorem latchFrame_moves (s : State) : (latchFrame s).moves = s.moves := rfl
@[simp] theorem latchFrame_tick (s : State) : (latchFrame s).tick = s.tick := rfl

/-! ### `persistSettings` -/

@[simp] theorem persistSettings_cfg (s : State) : (persistSettings s).cfg = s.cfg := rfl
@[simp] theorem persistSettings_esc (s : State) : (persistSettings s).esc = s.esc := rfl
@[simp] theorem persistSettings_argn (s : State) : (persistSettings s).argn = s.argn := rfl
@[simp] theorem persistSettings_tag (s : State) : (persistSettings s).tag = s.tag := rfl
@[simp] theorem persistSettings_ready (s : State) : (persistSettings s).ready = s.ready := rfl
@[simp] theorem persistSettings_args (s : State) : (persistSettings s).args = s.args := rfl
@[simp] theorem persistSettings_cidx (s : State) : (persistSettings s).cidx = s.cidx := rfl
@[simp] theorem persistSettings_col (s : State) : (persistSettings s).col = s.col := rfl
@[simp] theorem persistSettings_cx (s : State) : (persistSettings s).cx = s.cx := rfl
@[simp] theorem persistSettings_cy (s : State) : (persistSettings s).cy = s.cy := rfl
@[simp] theorem persistSettings_fb (s : State) : (persistSettings s).fb = s.fb := rfl
@[simp] theorem persistSettings_rq (s : State) : (persistSettings s).rq = s.rq := rfl
@[simp] theorem persistSettings_brightness (s : State) : (persistSettings s).brightness = s.brightness := rfl
@[simp] theorem persistSettings_accelEnabled (s : State) : (persistSettings s).accelEnabled = s.accelEnabled := rfl
@[simp] theorem persistSettings_numberDisplay (s : State) : (persistSettings s).numberDisplay = s.numberDisplay := rfl
@[simp] theorem persistSettings_btnReported (s : State) : (persistSettings s).btnReported = s.btnReported := rfl
@[simp] theorem persistSettings_btnIdx (s : State) : (persistSettings s).btnIdx = s.btnIdx := rfl
@[simp] theorem persistSettings_btnCtr (s : State) : (persistSettings s).btnCtr = s.btnCtr := rfl
@[simp] theorem persistSettings_exitCtr (s : State) : (persistSettings s).exitCtr = s.exitCtr := rfl
@[simp] theorem persistSettings_running (s : State) : (persistSettings s).running = s.running := rfl
@[simp] theorem persistSettings_readyOwed (s : State) : (persistSettings s).readyOwed = s.readyOwed := rfl
@[simp] theorem persistSettings_btnLive (s : State) : (persistSettings s).btnLive = s.btnLive := rfl
@[simp] theorem persistSettings_ax (s : State) : (persistSettings s).ax = s.ax := rfl
@[simp] theorem persistSettings_ay (s : State) : (persistSettings s).ay = s.ay := rfl
@[simp] theorem persistSettings_az (s : State) : (persistSettings s).az = s.az := rfl
@[simp] theorem persistSettings_txReady (s : State) : (persistSettings s).txReady = s.txReady := rfl
@[simp] theorem persistSettings_h2d (s : State) : (persistSettings s).h2d = s.h2d := rfl
@[simp] theorem persistSettings_d2h (s : State) : (persistSettings s).d2h = s.d2h := rfl
@[simp] theorem persistSettings_sender (s : State) : (persistSettings s).sender = s.sender := rfl
@[simp] theorem persistSettings_channelOpen (s : State) : (persistSettings s).channelOpen = s.channelOpen := rfl
@[simp] theorem persistSettings_frames (s : State) : (persistSettings s).frames = s.frames := rfl
@[simp] theorem persistSettings_shown (s : State) : (persistSettings s).shown = s.shown := rfl
@[simp] theorem persistSettings_saved (s : State) : (persistSettings s).saved = some (s.brightness, s.accelEnabled) := rfl
@[simp] theorem persistSettings_moves (s : State) : (persistSettings s).moves = s.moves := rfl
@[simp] theorem persistSettings_tick (s : State) : (persistSettings s).tick = s.tick := rfl

end Sys2Proof.Machine
end

