-- ==== Sys2Proof/Laws/Ops.lean ====
section
/-! SUPPORT. For each shared operation, one lemma that says everything it can do. -/

namespace Sys2Proof.Machine

@[simp] theorem mapNext_next (f : State → State) (s : State) : mapNext f (.next s) = .next (f s) := rfl
@[simp] theorem andThen_next (s : State) (f : State → Result) : andThen (.next s) f = f s := rfl
@[simp] theorem nextState_next (s : State) : nextState (.next s) = some s := rfl

/-- A result under `mapNext` that goes on came from one that goes on. -/
theorem mapNext_eq_next {f : State → State} {r : Result} {t : State} (h : mapNext f r = .next t) :
    ∃ u, r = .next u ∧ t = f u := by
  cases r with
  | next u => exact ⟨u, rfl, by simpa using h.symm⟩
  | fault _ => cases h
  | refused _ => cases h

/-- A result of `andThen` that goes on came from two that go on. -/
theorem andThen_eq_next {r : Result} {f : State → Result} {t : State} (h : andThen r f = .next t) :
    ∃ u, r = .next u ∧ f u = .next t := by
  cases r with
  | next u => exact ⟨u, rfl, h⟩
  | fault _ => cases h
  | refused _ => cases h

/-- What `rq_push` can do. -/
theorem rqPush_cases (b : Byte) (s : State) :
    (s.cfg.rqCapacity ≤ s.rq.length ∧ rqPush b s = none) ∨
    (s.rq.length < s.cfg.rqCapacity ∧ rqPush b s = some { s with rq := s.rq ++ [b] }) := by
  unfold rqPush
  split
  · exact .inl ⟨‹_›, rfl⟩
  · exact .inr ⟨by omega, rfl⟩

/-- What `answer` can do: defer, or queue the packet and consume the command. -/
theorem answer_eq (p : List Byte) (s : State) :
    answer p s = if rqFree s < p.length then s else { s with rq := s.rq ++ p, ready := false } := by
  unfold answer rqPushPacket
  by_cases h : rqFree s < p.length
  · simp only [if_pos h]
  · simp only [if_neg h]; rfl

/-- What a Set command can do: defer, or apply, queue Ready and consume, where `apply` leaves the queue
and the parameters alone. -/
theorem applyAndAck_eq {apply : State → State} {s : State}
    (hq : (apply s).rq = s.rq) (hc : (apply s).cfg = s.cfg) :
    applyAndAck apply s =
      if rqFree s = 0 then s else { apply s with rq := s.rq ++ [readyByte], ready := false } := by
  have hf : rqFree (apply s) = rqFree s := by simp [rqFree, hq, hc]
  unfold applyAndAck
  rw [answer_eq, hf, hq]
  by_cases h : rqFree s = 0
  · simp [h]
  · have h1 : 1 ≤ rqFree s := by omega
    simp [h, h1]

/-- What the Cursor's advance can do. -/
theorem advanceCursor_cases (s : State) :
    (s.cx + 1 < s.cfg.frameW ∧ advanceCursor s = ({ s with cx := s.cx + 1 }, false)) ∨
    (s.cfg.frameW ≤ s.cx + 1 ∧ s.cy + 1 < s.cfg.frameH ∧
      advanceCursor s = ({ s with cx := 0, cy := s.cy + 1 }, false)) ∨
    (s.cfg.frameW ≤ s.cx + 1 ∧ s.cfg.frameH ≤ s.cy + 1 ∧ advanceCursor s = (cursorHome s, true)) := by
  unfold advanceCursor
  split
  · exact .inl ⟨‹_›, rfl⟩
  · split
    · exact .inr (.inl ⟨by omega, ‹_›, rfl⟩)
    · exact .inr (.inr ⟨by omega, by omega, rfl⟩)

/-- What the poll of a button can do: nothing, or queue the event and update the reported state. -/
theorem pollButton_cases (i : Fin 6) (p : Bool) (s : State) :
    pollButton i p s = s ∨
    (p ≠ s.btnReported[i] ∧ s.rq.length < s.cfg.rqCapacity ∧
      pollButton i p s =
        { s with rq := s.rq ++ [buttonByte i p], btnReported := s.btnReported.set i.val p i.isLt }) := by
  unfold pollButton
  split
  · exact .inl rfl
  · rcases rqPush_cases (buttonByte i p) s with ⟨_, h⟩ | ⟨hl, h⟩
    · rw [h]; exact .inl rfl
    · rw [h]; exact .inr ⟨‹_›, hl, rfl⟩

/-- What READY can do. -/
theorem execReady_cases (s : State) :
    (s.cfg.rqCapacity ≤ s.rq.length ∧ execReady s = .next s) ∨
    (s.rq.length < s.cfg.rqCapacity ∧
      execReady s = .next { s with rq := s.rq ++ [readyByte], readyOwed := false, ready := false }) := by
  unfold execReady
  rcases rqPush_cases readyByte s with ⟨hl, h⟩ | ⟨hl, h⟩
  · rw [h]; exact .inl ⟨hl, rfl⟩
  · rw [h]; exact .inr ⟨hl, rfl⟩

/-- What the colour arm can do: drop, or store. -/
theorem colourArm_cases (v : Byte) (s : State) :
    (s.ready = true ∧ s.tag = .putcolor ∧ colourArm v s = s) ∨
    (¬(s.ready = true ∧ s.tag = .putcolor) ∧ colourArm v s = colourStore v s) := by
  unfold colourArm
  by_cases h : colourBusy s = true
  · rw [if_pos h]
    simp only [colourBusy, isCommandReady, Bool.and_eq_true, decide_eq_true_eq] at h
    exact .inl ⟨h.1, h.2, rfl⟩
  · rw [if_neg h]
    simp only [colourBusy, isCommandReady, Bool.and_eq_true, decide_eq_true_eq] at h
    exact .inr ⟨h, rfl⟩

/-- What PUTCOLOR can do: stop with the Cursor outside the frame; else write the pixel and advance in
the row, to the next row, or complete the frame. -/
theorem execPutcolor_cases (r g b : Byte) (s : State) :
    (¬(s.cx < s.cfg.frameW ∧ s.cy < s.cfg.frameH) ∧ execPutcolor r g b s = .fault .fbOutOfFrame) ∨
    (s.cx + 1 < s.cfg.frameW ∧ s.cy < s.cfg.frameH ∧ execPutcolor r g b s =
      .next { s with fb := pixelWritten r g b s, cx := s.cx + 1, ready := false }) ∨
    (s.cx + 1 = s.cfg.frameW ∧ s.cy + 1 < s.cfg.frameH ∧ execPutcolor r g b s =
      .next { s with fb := pixelWritten r g b s, cx := 0, cy := s.cy + 1, ready := false }) ∨
    (s.cx + 1 = s.cfg.frameW ∧ s.cy + 1 = s.cfg.frameH ∧ execPutcolor r g b s =
      .next { s with
        fb := pixelWritten r g b s, cx := 0, cy := 0, readyOwed := true
        frames := s.frames + 1, shown := pixelWritten r g b s }) := by
  unfold execPutcolor
  by_cases hin : cursorInFrame s = true
  · rw [if_pos hin]
    simp only [cursorInFrame, Bool.and_eq_true, decide_eq_true_eq] at hin
    generalize pixelWritten r g b s = m
    rcases advanceCursor_cases { s with fb := m } with ⟨h, e⟩ | ⟨h, h', e⟩ | ⟨h, h', e⟩ <;>
      rw [e] <;> dsimp only at h
    · exact .inr (.inl ⟨h, hin.2, rfl⟩)
    · exact .inr (.inr (.inl ⟨by omega, h', rfl⟩))
    · dsimp only at h'
      exact .inr (.inr (.inr ⟨by omega, by omega, rfl⟩))
  · rw [if_neg hin]
    simp only [cursorInFrame, Bool.and_eq_true, decide_eq_true_eq] at hin
    exact .inl ⟨hin, rfl⟩

end Sys2Proof.Machine
end

