-- ==== Sys2Proof/Laws/PerInstr.lean ====
section
/-! SUPPORT. Statements for all units, one lemma per constructor: `UnitBytes` says how many bytes the
encoding of each unit has, as the column `bytes` of spec/opcode_table.json gives it. -/

namespace Sys2Proof.Laws.UnitBytes

/-- The column `bytes` of spec/opcode_table.json. -/
def tableBytesOf : Instr → Nat
  | .color _ => 1
  | .litff | .sync | .getbr | .getacs | .getacv | .rsvd _ => 2
  | .setbr _ | .setacs _ => 3
  | .setnum _ _ _ => 5
  | .putcolor _ _ _ => 0
  | .ready | .btn _ _ => 1
  | .racs _ => 2
  | .rbr _ => 3
  | .racv _ _ _ => 8

/-- The encoding of `i` has as many bytes as the table says. -/
def Statement (i : Instr) : Prop := (encode i).length = tableBytesOf i

theorem color (b : Byte) : Statement (.color b) := rfl
theorem litff : Statement .litff := rfl
theorem sync : Statement .sync := rfl
theorem getbr : Statement .getbr := rfl
theorem setbr (a : Byte) : Statement (.setbr a) := rfl
theorem getacs : Statement .getacs := rfl
theorem setacs (a : Byte) : Statement (.setacs a) := rfl
theorem getacv : Statement .getacv := rfl
theorem setnum (b0 b1 b2 : Byte) : Statement (.setnum b0 b1 b2) := rfl
theorem rsvd (t : Byte) : Statement (.rsvd t) := rfl
theorem putcolor (r g b : Byte) : Statement (.putcolor r g b) := rfl
theorem ready : Statement .ready := rfl
theorem rbr (v : Byte) : Statement (.rbr v) := rfl
theorem racs (e : Bool) : Statement (.racs e) := rfl
theorem racv (x y z : U16) : Statement (.racv x y z) := rfl
theorem btn (i : Fin 6) (p : Bool) : Statement (.btn i p) := rfl

end Sys2Proof.Laws.UnitBytes
end

