-- ==== Sys2Proof/Laws/Step.lean ====
section
/-! SUPPORT. What one step of each agent can do, said once: the receiver's case table, and an
inversion lemma for each turn. -/

namespace Sys2Proof.Machine

/-- The case table of 41_receiver.md R114. -/
theorem receive_cases (b : Byte) (s : State) :
    (s.argn ≠ 0 ∧ receive b s = .next (argArm b s)) ∨
    (s.argn = 0 ∧ s.esc = false ∧ b = escByte ∧ receive b s = .next (escapeSeen s)) ∨
    (s.argn = 0 ∧ s.esc = false ∧ b ≠ escByte ∧ receive b s = .next (colourArm b s)) ∨
    (s.argn = 0 ∧ s.esc = true ∧ b = escByte ∧ receive b s = .next (colourArm escByte (clearEsc s))) ∨
    (s.argn = 0 ∧ s.esc = true ∧ b ≠ escByte ∧ s.ready = true ∧ receive b s = .next (clearEsc s)) ∨
    (s.argn = 0 ∧ s.esc = true ∧ b ≠ escByte ∧ s.ready = false ∧
      ∃ t, tagOfByte b = some t ∧ receive b s = .next (acceptTag t (clearEsc s))) ∨
    (s.argn = 0 ∧ s.esc = true ∧ b ≠ escByte ∧ s.ready = false ∧ tagOfByte b = none ∧
      receive b s = .next (clearEsc s)) := by
  unfold receive afterEscape
  by_cases ha : s.argn = 0
  · cases he : s.esc
    · by_cases hb : b = escByte <;> simp [ha, hb, exec, execColor]
    · by_cases hb : b = escByte
      · simp [ha, hb, exec, execLitff]
      · cases hr : s.ready
        · cases ht : tagOfByte b <;> simp [ha, hb, exec, execRsvd]
        · simp [ha, hb]
  · simp [ha]

/-- The receiver always goes on (41_receiver.md R114). -/
theorem receive_next (b : Byte) (s : State) : ∃ t, receive b s = .next t := by
  rcases receive_cases b s with ⟨_, h⟩ | ⟨_, _, _, h⟩ | ⟨_, _, _, h⟩ | ⟨_, _, _, h⟩ | ⟨_, _, _, _, h⟩ |
    ⟨_, _, _, _, _, _, h⟩ | ⟨_, _, _, _, _, h⟩ <;> exact ⟨_, h⟩

/-- RX: no interrupt, or one byte taken and received. -/
theorem rxTurn_cases (s : State) :
    ((s.running = false ∨ s.h2d = []) ∧ rxTurn s = .next s) ∨
    (s.running = true ∧ ∃ b rest, s.h2d = b :: rest ∧ rxTurn s = receive b { s with h2d := rest }) := by
  unfold rxTurn takeByte
  cases hr : s.running
  · exact .inl ⟨.inl rfl, rfl⟩
  · cases hh : s.h2d with
    | nil => exact .inl ⟨.inr rfl, rfl⟩
    | cons b rest => exact .inr ⟨rfl, b, rest, rfl, rfl⟩

/-- DISP: not running; the Ready retry; the command in the slot; an idle tick. -/
theorem dispTurn_cases (s : State) :
    (s.running = false ∧ dispTurn s = .next s) ∨
    (s.running = true ∧ s.readyOwed = true ∧ dispTurn s = exec .ready s) ∨
    (s.running = true ∧ s.readyOwed = false ∧ s.ready = true ∧
      dispTurn s = mapNext exitCheck (exec (slotInstr s) s)) ∨
    (s.running = true ∧ s.readyOwed = false ∧ s.ready = false ∧ dispTurn s = mapNext exitCheck (idleTurn s)) := by
  unfold dispTurn
  cases s.running <;> cases s.readyOwed <;> cases s.ready <;> simp

/-- The exit check writes its counter, `running` and the record of `persist_settings()`. -/
theorem exitCheck_frame (s : State) :
    exitCheck s = { s with
      exitCtr := (exitCheck s).exitCtr, running := (exitCheck s).running, saved := (exitCheck s).saved } := by
  unfold exitCheck persistSettings
  split
  · split <;> rfl
  · rfl

/-- An idle tick: count, or poll the button whose turn it is. -/
theorem idleTurn_cases (s : State) :
    (s.btnCtr + 1 ≠ s.cfg.btnPollInterval ∧ idleTurn s = .next { s with btnCtr := s.btnCtr + 1 }) ∨
    (s.btnCtr + 1 = s.cfg.btnPollInterval ∧
      idleTurn s = .next { s with btnCtr := 0, btnIdx := nextButton s.btnIdx }) ∨
    (s.btnCtr + 1 = s.cfg.btnPollInterval ∧ s.rq.length < s.cfg.rqCapacity ∧
      idleTurn s = .next { s with
        btnCtr := 0
        btnIdx := nextButton s.btnIdx
        rq := s.rq ++ [buttonByte s.btnIdx s.btnLive[s.btnIdx]]
        btnReported := s.btnReported.set s.btnIdx.val s.btnLive[s.btnIdx] s.btnIdx.isLt }) := by
  unfold idleTurn
  by_cases h : s.btnCtr + 1 = s.cfg.btnPollInterval
  · rw [if_pos h]
    simp only [exec, execBtn, mapNext_next]
    rcases pollButton_cases s.btnIdx s.btnLive[s.btnIdx] { s with btnCtr := 0 } with e | ⟨_, hl, e⟩ <;> rw [e]
    · exact .inr (.inl ⟨h, rfl⟩)
    · exact .inr (.inr ⟨h, hl, rfl⟩)
  · rw [if_neg h]
    exact .inl ⟨h, rfl⟩

/-- TXD: nothing to send or nowhere to send it, or the oldest byte goes out. -/
theorem txdTurn_cases (s : State) :
    ((s.txReady = false ∨ s.rq = []) ∧ txdTurn s = s) ∨
    (s.txReady = true ∧ ∃ b rest, s.rq = b :: rest ∧ txdTurn s = { s with rq := rest, d2h := s.d2h ++ [b] }) := by
  unfold txdTurn rqPop
  cases ht : s.txReady
  · exact .inl ⟨.inl rfl, rfl⟩
  · cases hq : s.rq with
    | nil => exact .inl ⟨.inr rfl, rfl⟩
    | cons b rest => exact .inr ⟨rfl, b, rest, rfl, rfl⟩

/-- Every unit but PUTCOLOR goes on in every state, without writing the frame buffer, the parameters, the
dispatcher's counters or the record of the display. -/
theorem exec_next_frame (i : Instr) (s : State) (h : ∀ r g b, i ≠ .putcolor r g b) :
    ∃ t, exec i s = .next t ∧
      t = { s with
        esc := t.esc, tag := t.tag, ready := t.ready, cidx := t.cidx, col := t.col, cx := t.cx, cy := t.cy
        rq := t.rq, brightness := t.brightness, accelEnabled := t.accelEnabled
        numberDisplay := t.numberDisplay, btnReported := t.btnReported, readyOwed := t.readyOwed } := by
  cases i with
  | color b =>
    refine ⟨_, rfl, ?_⟩
    rcases colourArm_cases b s with ⟨_, _, e⟩ | ⟨_, e⟩ <;> rw [e]; rfl
  | litff =>
    refine ⟨_, rfl, ?_⟩
    rcases colourArm_cases escByte (clearEsc s) with ⟨_, _, e⟩ | ⟨_, e⟩ <;> rw [e] <;> rfl
  | sync => exact ⟨_, rfl, rfl⟩
  | getbr => refine ⟨_, rfl, ?_⟩; rw [answer_eq]; split <;> rfl
  | getacs => refine ⟨_, rfl, ?_⟩; rw [answer_eq]; split <;> rfl
  | getacv => refine ⟨_, rfl, ?_⟩; rw [answer_eq]; split <;> rfl
  | setbr a =>
    refine ⟨_, rfl, ?_⟩
    rw [applyAndAck_eq rfl rfl]; split <;> rfl
  | setacs a =>
    refine ⟨_, rfl, ?_⟩
    rw [applyAndAck_eq rfl rfl]; split <;> rfl
  | setnum b0 b1 b2 =>
    refine ⟨_, rfl, ?_⟩
    rw [applyAndAck_eq rfl rfl]; split <;> rfl
  | rsvd t => exact ⟨_, rfl, rfl⟩
  | putcolor r g b => exact absurd rfl (h r g b)
  | ready =>
    rcases execReady_cases s with ⟨_, e⟩ | ⟨_, e⟩
    · exact ⟨_, e, rfl⟩
    · exact ⟨_, e, rfl⟩
  | rbr v => refine ⟨_, rfl, ?_⟩; rw [answer_eq]; split <;> rfl
  | racs e => refine ⟨_, rfl, ?_⟩; rw [answer_eq]; split <;> rfl
  | racv x y z => refine ⟨_, rfl, ?_⟩; rw [answer_eq]; split <;> rfl
  | btn n p =>
    refine ⟨_, rfl, ?_⟩
    rcases pollButton_cases n p s with e | ⟨_, _, e⟩ <;> rw [e]

/-- A move of the host or the environment writes nothing of the block. -/
theorem outside_frame {m : Move} (hm : m ≠ .rx ∧ m ≠ .disp ∧ m ≠ .txd) {s t : State}
    (h : runMove m s = .next t) :
    t = { s with
      h2d := t.h2d, d2h := t.d2h, sender := t.sender, channelOpen := t.channelOpen, btnLive := t.btnLive
      ax := t.ax, ay := t.ay, az := t.az, txReady := t.txReady } := by
  obtain ⟨h1, h2, h3⟩ := hm
  cases m with
  | rx => exact absurd rfl h1
  | disp => exact absurd rfl h2
  | txd => exact absurd rfl h3
  | hostByte b =>
    injection h with h; subst h
    unfold hostByteTurn; split <;> rfl
  | hostSend f =>
    simp only [runMove, hostSendTurn] at h
    split at h
    · injection h with h; subst h; rfl
    · split at h
      · injection h with h; subst h; rfl
      · cases h
  | hostWrite =>
    injection h with h; subst h
    unfold hostWriteTurn; split <;> rfl
  | hostRead =>
    injection h with h; subst h
    unfold hostReadTurn
    split
    · split <;> rfl
    · rfl
  | hostFail =>
    injection h with h; subst h
    unfold hostFailTurn; split <;> rfl
  | hostClose =>
    injection h with h; subst h
    unfold hostCloseTurn; split <;> rfl
  | envButtons live => injection h with h; subst h; rfl
  | envAccel x y z => injection h with h; subst h; rfl
  | envTxReady r => injection h with h; subst h; rfl

/-- Drawing the next move writes only the list of moves and the count of free ones. -/
theorem drawMove_frame (s : State) :
    (drawMove s).2 = { s with moves := (drawMove s).2.moves, tick := (drawMove s).2.tick } := by
  unfold drawMove
  split <;> rfl

/-- A step that goes on is one agent's move from the state with its move drawn. -/
theorem step_eq (s : State) : step s = runMove (drawMove s).1 (drawMove s).2 := rfl

end Sys2Proof.Machine
end

