-- ==== Sys2Proof/Laws/Runs.lean ====
section
/-! SUPPORT. The laws of what claims are stated in beyond one step: the bytes of sequences of units
(30_encoding.md R62, R82), receipt of several bytes, draining the queue, and what one move of a run does while
a Ready is owed or a wire command is in flight. -/

namespace Sys2Proof

/-- The one unit of `COMP c` has the bytes of `esc_comp(c)` (30_encoding.md R82, 40_encoder.md R91). -/
theorem encode_compUnit (c : Byte) : encode (compUnit c) = Machine.escComp c := by
  by_cases h : c = escByte
  · subst h; rfl
  · simp [compUnit, Machine.escComp, h, encode]

@[simp] theorem encodeUnits_nil : encodeUnits [] = [] := rfl
@[simp] theorem encodeUnits_cons (i : Instr) (us : List Instr) : encodeUnits (i :: us) = encode i ++ encodeUnits us := rfl

theorem encodeUnits_append (us vs : List Instr) : encodeUnits (us ++ vs) = encodeUnits us ++ encodeUnits vs :=
  List.flatMap_append

namespace Machine

@[simp] theorem receiveAll_nil (s : State) : receiveAll [] s = .next s := rfl
@[simp] theorem receiveAll_cons (b : Byte) (bs : List Byte) (s : State) :
    receiveAll (b :: bs) s = andThen (receive b s) (receiveAll bs) := rfl

/-- Receipt of two stretches, one after the other. -/
theorem receiveAll_append (bs cs : List Byte) (s : State) :
    receiveAll (bs ++ cs) s = andThen (receiveAll bs s) (receiveAll cs) := by
  induction bs generalizing s with
  | nil => rfl
  | cons b bs ih =>
    simp only [List.cons_append, receiveAll_cons]
    cases receive b s with
    | next t => exact ih t
    | fault _ => rfl
    | refused _ => rfl

/-- What `n` poller steps do while the channel accepts bytes: the first `n` queued bytes are sent. -/
theorem drain_eq (n : Nat) (s : State) (h : s.txReady = true) :
    drain n s = { s with rq := s.rq.drop n, d2h := s.d2h ++ s.rq.take n } := by
  induction n generalizing s with
  | zero => simp [drain]
  | succ n ih =>
    rcases txdTurn_cases s with ⟨hc, e⟩ | ⟨-, b, rest, hq, e⟩
    · have hq : s.rq = [] := hc.resolve_left (by simp [h])
      rw [drain, e, ih s h]; simp [hq]
    · have hr := ih { s with rq := rest, d2h := s.d2h ++ [b] } h
      rw [drain, e, hr]; simp [hq]

/-! ### One move of a run -/

/-- With a move fixed in State, a step is that move: a finite schedule is a list of moves. -/
theorem step_of_moves (m : Move) (ms : List Move) (s : State) :
    step { s with moves := m :: ms } = runMove m { s with moves := ms } := rfl

/-- What a byte's receipt leaves: all but the receiver's state and the Cursor; and a command in flight stays in
flight, with its tag or, overwritten, as a PUTCOLOR. -/
theorem receive_frame {b : Byte} {s t : State} (h : receive b s = .next t) :
    t = { s with
      esc := t.esc, argn := t.argn, tag := t.tag, ready := t.ready, args := t.args, cidx := t.cidx
      col := t.col, cx := t.cx, cy := t.cy } ∧
    (s.ready = true → t.ready = true ∧ (t.tag = s.tag ∨ t.tag = .putcolor)) := by
  have hc : ∀ v u, colourArm v u = { u with
        col := (colourArm v u).col, cidx := (colourArm v u).cidx
        tag := (colourArm v u).tag, ready := (colourArm v u).ready } ∧
      (u.ready = true → (colourArm v u).ready = true ∧
        ((colourArm v u).tag = u.tag ∨ (colourArm v u).tag = .putcolor)) := by
    intro v u
    rcases colourArm_cases v u with ⟨_, _, e⟩ | ⟨_, e⟩ <;> rw [e]
    · exact ⟨rfl, fun h => ⟨h, .inl rfl⟩⟩
    · refine ⟨rfl, fun h => ?_⟩
      unfold colourStore
      by_cases hx : u.cidx = 2 <;> simp [hx, h]
  rcases receive_cases b s with ⟨_, e⟩ | ⟨_, _, _, e⟩ | ⟨_, _, _, e⟩ | ⟨_, _, _, e⟩ | ⟨_, _, _, _, e⟩ |
    ⟨_, _, _, hr, k, _, e⟩ | ⟨_, _, _, _, _, e⟩ <;> rw [e] at h <;> injection h with h <;> subst h
  · refine ⟨rfl, fun h => ⟨?_, .inl rfl⟩⟩
    unfold argArm; simp [h]
  · exact ⟨rfl, fun h => ⟨h, .inl rfl⟩⟩
  · obtain ⟨h1, h2⟩ := hc b s
    refine ⟨?_, h2⟩
    conv_lhs => rw [h1]
    rw [h1]
  · obtain ⟨h1, h2⟩ := hc escByte (clearEsc s)
    refine ⟨?_, h2⟩
    conv_lhs => rw [h1]
    rw [h1]; rfl
  · exact ⟨rfl, fun h => ⟨h, .inl rfl⟩⟩
  · refine ⟨?_, fun h => by simp [h] at hr⟩
    unfold acceptTag syncSideEffect cursorHome clearEsc
    by_cases h1 : k = .sync
    · subst h1; rfl
    · by_cases h2 : tagArgs k = 0 <;> simp [h1, h2]
  · exact ⟨rfl, fun h => ⟨h, .inl rfl⟩⟩

/-- What `responseOf` can be at most: the largest packet. -/
theorem responseOf_length_le (s : State) : (responseOf s).length ≤ 8 := by
  unfold responseOf; cases s.tag <;> simp; split <;> simp

/-- What the dispatch of a wire command can do: defer, or append its whole response and consume it. -/
theorem exec_slot_wire {s : State} (ht : s.tag ≠ .putcolor) :
    ∃ t, exec (slotInstr s) s = .next t ∧
      ((rqFree s < (responseOf s).length ∧ t = s) ∨
       ((responseOf s).length ≤ rqFree s ∧ t.ready = false ∧ t.rq = s.rq ++ responseOf s ∧
        t.cfg = s.cfg ∧ t.d2h = s.d2h ∧ t.readyOwed = s.readyOwed)) := by
  cases htag : s.tag with
  | putcolor => exact absurd htag ht
  | sync => 
    simp only [slotInstr, htag, responseOf]
    exact ⟨_, rfl, .inr ⟨by simp, rfl, by simp [cursorHome], rfl, rfl, rfl⟩⟩
  | getbr | getacs | getacv =>
    simp only [slotInstr, htag, exec, execGetbr, execGetacs, execGetacv, answer_eq]
    refine ⟨_, rfl, ?_⟩
    split
    · rename_i h; refine .inl ⟨?_, rfl⟩
      simp [responseOf, htag, encode] at h ⊢
      try (split <;> simpa using h)
      try exact h
    · rename_i h; refine .inr ⟨?_, rfl, ?_, rfl, rfl, rfl⟩
      · simp [responseOf, htag, encode] at h ⊢
        try (split <;> simpa using h)
        try exact h
      · simp [responseOf, htag, encode, accelHeader, readyByte, accelValues, lowByte, highByte]
        try (cases s.accelEnabled <;> simp)
  | setbr | setacs | setnum =>
    simp only [slotInstr, htag, exec, execSetbr, execSetacs, execSetnum]
    rw [applyAndAck_eq rfl rfl]
    refine ⟨_, rfl, ?_⟩
    split
    · rename_i h; exact .inl ⟨by simp [responseOf, htag]; omega, rfl⟩
    · rename_i h; exact .inr ⟨by simp [responseOf, htag]; omega, rfl, by simp [responseOf, htag, readyByte], rfl, rfl, rfl⟩

/-- What the exit check leaves. -/
theorem exitCheck_same (u : State) :
    (exitCheck u).ready = u.ready ∧ (exitCheck u).rq = u.rq ∧ (exitCheck u).d2h = u.d2h ∧
    (exitCheck u).cfg = u.cfg ∧ (exitCheck u).tag = u.tag ∧ (exitCheck u).readyOwed = u.readyOwed := by
  rw [exitCheck_frame u]; simp

/-- What one move can do while Ready is owed: leave it owed, with at most the head of the queue gone, or be the
dispatcher step that queues it. -/
theorem owed_move {m : Move} {s t : State} (hr : s.running = true) (ho : s.readyOwed = true)
    (h : runMove m s = .next t) :
    t.cfg = s.cfg ∧
    ((t.running = true ∧ t.readyOwed = true ∧ (∃ p, s.rq = p ++ t.rq) ∧
        (m = .txd → s.txReady = true → s.rq ≠ [] → t.rq.length < s.rq.length) ∧
        (m = .disp → s.cfg.rqCapacity ≤ s.rq.length)) ∨
     (m = .disp ∧ t.readyOwed = false ∧ t.rq = s.rq ++ [0x78#8])) := by
  by_cases h1 : m = .rx
  · subst h1
    simp only [runMove] at h
    rcases rxTurn_cases s with ⟨_, e⟩ | ⟨_, b, rest, hb, e⟩ <;> rw [e] at h
    · injection h with h; subst h
      exact ⟨rfl, .inl ⟨hr, ho, ⟨[], rfl⟩, by simp, by simp⟩⟩
    · have := (receive_frame h).1
      rw [this]
      exact ⟨rfl, .inl ⟨hr, ho, ⟨[], rfl⟩, by simp, by simp⟩⟩
  by_cases h2 : m = .disp
  · subst h2
    simp only [runMove, dispTurn, hr, ho, if_true, exec] at h
    rcases execReady_cases s with ⟨hl, e⟩ | ⟨hl, e⟩ <;> rw [e] at h <;> injection h with h <;> subst h
    · exact ⟨rfl, .inl ⟨hr, ho, ⟨[], rfl⟩, by simp, fun _ => hl⟩⟩
    · exact ⟨rfl, .inr ⟨rfl, rfl, rfl⟩⟩
  by_cases h3 : m = .txd
  · subst h3
    simp only [runMove] at h
    injection h with h
    rcases txdTurn_cases s with ⟨hc, e⟩ | ⟨_, b, rest, hq, e⟩ <;> rw [e] at h <;> subst h
    · refine ⟨rfl, .inl ⟨hr, ho, ⟨[], rfl⟩, ?_, by simp⟩⟩
      intro _ a b; simp_all
    · exact ⟨rfl, .inl ⟨hr, ho, ⟨[b], by simpa using hq⟩, by simp [hq], by simp⟩⟩
  · have := outside_frame ⟨h1, h2, h3⟩ h
    rw [this]
    exact ⟨rfl, .inl ⟨hr, ho, ⟨[], rfl⟩, fun h => absurd h h3, fun h => absurd h h2⟩⟩

/-- What one move can do while a wire command is in flight: leave a command in flight, with at most the head of
the queue gone, or be the dispatcher step that appends its whole response and consumes it. -/
theorem wire_move {m : Move} {s t : State} (hr : s.running = true) (ho : s.readyOwed = false) (hy : s.ready = true)
    (ht : s.tag ≠ .putcolor) (h : runMove m s = .next t) :
    t.cfg = s.cfg ∧ t.readyOwed = false ∧
    ((t.ready = true ∧ (t.tag = s.tag ∨ t.tag = .putcolor) ∧ t.rq.length ≤ s.rq.length ∧
        (m = .txd → s.txReady = true → s.rq ≠ [] → t.rq.length < s.rq.length) ∧
        (m = .disp → rqFree s < (responseOf s).length)) ∨
     (m = .disp ∧ t.ready = false ∧ t.rq = s.rq ++ responseOf s)) := by
  by_cases h1 : m = .rx
  · subst h1
    simp only [runMove] at h
    rcases rxTurn_cases s with ⟨_, e⟩ | ⟨_, b, rest, hb, e⟩ <;> rw [e] at h
    · injection h with h; subst h
      exact ⟨rfl, ho, .inl ⟨hy, .inl rfl, le_rfl, by simp, by simp⟩⟩
    · obtain ⟨e1, e2⟩ := receive_frame h
      obtain ⟨e3, e4⟩ := e2 hy
      refine ⟨by rw [e1], by rw [e1]; exact ho, .inl ⟨e3, e4, by rw [e1], by simp, by simp⟩⟩
  by_cases h2 : m = .disp
  · subst h2
    obtain ⟨u, hu, hcase⟩ := exec_slot_wire ht
    simp only [runMove, dispTurn, hr, ho, hy, if_true, hu, Bool.false_eq_true, if_false, mapNext_next] at h
    injection h with h; subst h
    obtain ⟨x1, x2, x3, x4, x5, x6⟩ := exitCheck_same u
    rw [x1, x2, x4, x5, x6]
    rcases hcase with ⟨hl, rfl⟩ | ⟨_, y1, y2, y3, _, y4⟩
    · exact ⟨rfl, ho, .inl ⟨hy, .inl rfl, le_rfl, by simp, fun _ => hl⟩⟩
    · exact ⟨y3, y4.trans ho, .inr ⟨rfl, y1, y2⟩⟩
  by_cases h3 : m = .txd
  · subst h3
    simp only [runMove] at h
    injection h with h
    rcases txdTurn_cases s with ⟨hc, e⟩ | ⟨_, b, rest, hq, e⟩ <;> rw [e] at h <;> subst h
    · refine ⟨rfl, ho, .inl ⟨hy, .inl rfl, le_rfl, ?_, by simp⟩⟩
      intro _ a b; simp_all
    · exact ⟨rfl, ho, .inl ⟨hy, .inl rfl, by simp [hq], by simp [hq], by simp⟩⟩
  · have := outside_frame ⟨h1, h2, h3⟩ h
    rw [this]
    exact ⟨rfl, ho, .inl ⟨hy, .inl rfl, le_rfl, fun h => absurd h h3, fun h => absurd h h2⟩⟩

end Machine

end Sys2Proof
end

