-- ==== Sys2Proof/Tests/Slice0.lean ====
section
/-! SUPPORT. The model's own tests: well-formedness, decoding of words written out from 30_encoding.md,
one or two single steps per unit with the results of 95_test_vectors.md, and for every statement with
hypotheses a concrete state and operands that meet them. -/

namespace Sys2Proof.Tests

open Sys2Proof Sys2Proof.Machine

/-! ### Helpers -/

/-- The parameters of 95_test_vectors.md with a 2 by 2 frame. -/
def cfg2 : Config := { Config.standard with frameW := 2, frameH := 2 }

/-- The state after reset for them. -/
def base : State := State.resetWith cfg2

/-- A command `t` in flight. -/
def inFlight (t : Tag) : State := { base with ready := true, tag := t }

/-- An escape pending. -/
def escaped : State := { base with esc := true }

/-- A full queue. -/
def full : List Byte := [0xA0#8, 0xA1#8, 0xA2#8, 0xA3#8, 0xA4#8, 0xA5#8, 0xA6#8, 0xA7#8]

/-- Live buttons 4 and 5 pressed (scenario S4). -/
def exitLive : Vector Bool 6 := #v[false, false, false, false, true, true]

/-- The frame of scenario S1. -/
def frameS1 : Frame :=
  [[⟨0#8, 0#8, 0#8⟩, ⟨0#8, 0#8, 0#8⟩], [⟨0#8, 0#8, 0#8⟩, ⟨0xFF#8, 0#8, 0#8⟩]]

/-! ### Well-formedness: a term each check refuses, and the ends of the ranges it accepts -/

theorem test_color_FF_ill_formed : (Instr.color 0xFF#8).wellFormed = false := by decide
theorem test_rsvd_06_ill_formed : (Instr.rsvd 0x06#8).wellFormed = false := by decide
theorem test_rsvd_FF_ill_formed : (Instr.rsvd 0xFF#8).wellFormed = false := by decide
theorem test_range_ends_well_formed :
    ((Instr.color 0xFE#8).wellFormed && (Instr.rsvd 0x07#8).wellFormed && (Instr.rsvd 0xFE#8).wellFormed) = true := by
  decide

/-! ### Decoding: words from 30_encoding.md R62, R63, R74 to R78, bit by bit -/

theorem test_decode_color : decode [0b00010010#8] = .ok (.color 0x12#8, []) := by decide
theorem test_decode_litff : decode [0b11111111#8, 0b11111111#8] = .ok (.litff, []) := by decide
theorem test_decode_sync : decode [0b11111111#8, 0b00000000#8] = .ok (.sync, []) := by decide
theorem test_decode_getbr : decode [0b11111111#8, 0b00000001#8] = .ok (.getbr, []) := by decide
theorem test_decode_setbr : decode [0b11111111#8, 0b00000010#8, 0b11111111#8] = .ok (.setbr 0xFF#8, []) := by decide
theorem test_decode_getacs : decode [0b11111111#8, 0b00000011#8] = .ok (.getacs, []) := by decide
theorem test_decode_setacs : decode [0b11111111#8, 0b00000100#8, 0b00000001#8] = .ok (.setacs 1#8, []) := by decide
theorem test_decode_getacv : decode [0b11111111#8, 0b00000101#8] = .ok (.getacv, []) := by decide
theorem test_decode_setnum :
    decode [0b11111111#8, 0b00000110#8, 0x39#8, 0x30#8, 0x01#8] = .ok (.setnum 0x39#8 0x30#8 0x01#8, []) := by decide
theorem test_decode_rsvd : decode [0b11111111#8, 0b01111000#8, 0#8] = .ok (.rsvd 0x78#8, [0#8]) := by decide
theorem test_decode_truncated : decode [0xFF#8, 0x06#8, 0x39#8] = .error .truncated := by decide
theorem test_decode_ready : decodeDevice [0b01111000#8] = .ok (.ready, []) := by decide
theorem test_decode_rbr : decodeDevice [0b00000001#8, 0x78#8, 0b01111000#8] = .ok (.rbr 0x78#8, []) := by decide
theorem test_decode_racs : decodeDevice [0b11100001#8, 0b01111000#8] = .ok (.racs true, []) := by decide
theorem test_decode_racv :
    decodeDevice [0b00000101#8, 0x05#8, 0x78#8, 0xF1#8, 0xF0#8, 0x78#8, 0x01#8, 0b01111000#8] =
      .ok (.racv 0x7805#16 0xF0F1#16 0x0178#16, []) := by decide
theorem test_decode_btn : decodeDevice [0b11111010#8] = .ok (.btn 5 false, []) := by decide
theorem test_decode_FC_refused : decodeDevice [0b11111100#8] = .error .notAUnit := by decide

/-- R66, VR9: pairing is by arrival. -/
theorem test_decode_pairing : decode [0xFF#8, 0xFF#8, 0xFF#8, 0x00#8] = .ok (.litff, [0xFF#8, 0x00#8]) := by decide

/-- R82 with P2: `SETNUMV 77881` and `COMP FF`. -/
theorem test_pseudo_units :
    setnumvUnit 77881#17 = .setnum 0x39#8 0x30#8 0x01#8 ∧ compUnit 0xFF#8 = .litff ∧ compUnit 0xFE#8 = .color 0xFE#8 := by
  decide

/-- R82: `PIXEL` and `FRAME`, with the bytes of S1, corrected. -/
theorem test_pseudo_frame :
    pixelUnits ⟨0x10#8, 0xFF#8, 0x30#8⟩ = [.color 0x10#8, .litff, .color 0x30#8] ∧
    encodeUnits (frameUnits frameS1) =
      [0xFF#8, 0x00#8, 0#8, 0#8, 0#8, 0#8, 0#8, 0#8, 0#8, 0#8, 0#8, 0xFF#8, 0xFF#8, 0#8, 0#8] := by decide

/-- The words of spec/opcode_table.json, first byte most significant. -/
theorem test_table_words :
    decodeTableWord 16 0xFF00 = some .sync ∧ decodeTableWord 24 0xFF0264 = some (.setbr 0x64#8) ∧
    decodeTableWord 16 0xFF02 = some (.setbr 0#8) ∧ decodeTableWord 24 0x013278 = some (.rbr 0x32#8) ∧
    decodeTableWord 16 0xE178 = some (.racs true) ∧ decodeTableWord 8 0xF5 = some (.btn 2 true) := by decide

/-- The word of GETBR, placed, runs as the first step after reset. -/
theorem test_step_runs_placed_getbr :
    (nextState (step (State.reset.withFetchWord 16 0xFF01))).map State.rq = some [0x01#8, 50#8, 0x78#8] := by decide

/-! ### Units the receiver executes (95_test_vectors.md 2.2) -/

/-- VR7c. -/
theorem test_color_third_component :
    (nextState (exec (.color 0x30#8) { base with cidx := 2 })).map (fun t => (t.col[2], t.cidx, t.ready, t.tag)) =
      some (0x30#8, 0, true, .putcolor) := by decide

/-- VR5a. -/
theorem test_color_dropped_by_guard :
    nextState (exec (.color 0x09#8) (inFlight .putcolor)) = some (inFlight .putcolor) := by decide

/-- VR2k. -/
theorem test_litff_stores :
    (nextState (exec .litff { escaped with cidx := 1 })).map (fun t => (t.col[1], t.cidx, t.esc, t.ready)) =
      some (0xFF#8, 2, false, false) := by decide

/-- VR5c. -/
theorem test_litff_dropped_by_guard :
    nextState (exec .litff { inFlight .putcolor with esc := true }) = some (inFlight .putcolor) := by decide

/-- VR2h. -/
theorem test_rsvd_drops : nextState (receive 0x07#8 { escaped with cidx := 2 }) = some { base with cidx := 2 } := by decide

/-- VR2a. -/
theorem test_sync_tag_resets_cursor :
    (nextState (receive 0x00#8 { escaped with cidx := 2, cx := 1, cy := 1 })).map
      (fun t => (t.cx, t.cy, t.cidx, t.ready, t.tag)) = some (0, 0, 0, true, .sync) := by decide

/-- VR2l. -/
theorem test_sync_tag_keeps_cidx :
    (nextState (receive 0x00#8
      { escaped with cidx := 2, cfg := { cfg2 with syncResetsCidx := false } })).map State.cidx = some 2 := by decide

/-- VR3b. -/
theorem test_argument_FF :
    (nextState (receive 0xFF#8 { base with argn := 3, tag := .setnum })).map (fun t => (t.argn, t.args[2], t.esc)) =
      some (2, 0xFF#8, false) := by decide

/-- VR4b. -/
theorem test_busy_sync_dropped :
    nextState (receive 0x00#8 { inFlight .putcolor with esc := true, cx := 1, cy := 1 }) =
      some { inFlight .putcolor with cx := 1, cy := 1 } := by decide

/-! ### Commands (95_test_vectors.md 2.3) -/

/-- VC9. -/
theorem test_sync :
    nextState (exec .sync { inFlight .sync with cx := 1, cy := 1 }) = some { base with tag := .sync } := by decide

/-- VC2. -/
theorem test_getbr :
    (nextState (exec .getbr { inFlight .getbr with brightness := 0x78#8 })).map (fun t => (t.rq, t.ready)) =
      some ([0x01#8, 0x78#8, 0x78#8], false) := by decide

/-- VC7. -/
theorem test_getbr_deferred :
    nextState (exec .getbr { inFlight .getbr with rq := full.take 6 }) =
      some { inFlight .getbr with rq := full.take 6 } := by decide

/-- VC1. -/
theorem test_setbr_low :
    (nextState (exec (.setbr 0x09#8) (inFlight .setbr))).map (fun t => (t.brightness, t.rq)) =
      some (0x0A#8, [0x78#8]) := by decide

/-- VC1. -/
theorem test_setbr_high :
    (nextState (exec (.setbr 0xC9#8) (inFlight .setbr))).map State.brightness = some 0xC8#8 := by decide

/-- VC3. -/
theorem test_getacs :
    (nextState (exec .getacs { inFlight .getacs with accelEnabled := true })).map State.rq =
      some [0xE1#8, 0x78#8] := by decide

/-- VC4. -/
theorem test_setacs_one :
    (nextState (exec (.setacs 1#8) (inFlight .setacs))).map (fun t => (t.accelEnabled, t.rq)) =
      some (true, [0x78#8]) := by decide

/-- VC4. -/
theorem test_setacs_zero :
    (nextState (exec (.setacs 0#8) { inFlight .setacs with accelEnabled := true })).map State.accelEnabled =
      some false := by decide

/-- VC5. -/
theorem test_getacv :
    (nextState (exec .getacv
      { inFlight .getacv with accelEnabled := true, ax := 0x0123#16, ay := 0xFFFE#16, az := 0x8000#16 })).map State.rq =
      some [0x05#8, 0x23#8, 0x01#8, 0xFE#8, 0xFF#8, 0x00#8, 0x80#8, 0x78#8] := by decide

/-- VC5. -/
theorem test_getacv_disabled :
    (nextState (exec .getacv { inFlight .getacv with ax := 0x0123#16 })).map State.rq =
      some [0x05#8, 0#8, 0#8, 0#8, 0#8, 0#8, 0#8, 0x78#8] := by decide

/-- VC6: bits 7..1 of the third byte are ignored. -/
theorem test_setnum_ignored_bits :
    (nextState (exec (.setnum 0xFF#8 0xFF#8 0xFE#8) (inFlight .setnum))).map State.numberDisplay =
      some 0x0FFFF#17 := by decide

/-- VC6. -/
theorem test_setnum_bit16 :
    (nextState (exec (.setnum 0x39#8 0x30#8 0x01#8) (inFlight .setnum))).map State.numberDisplay =
      some 77881#17 := by decide

/-- P1 step 11: row wrap, and the pixel stays in flight no longer. -/
theorem test_putcolor_row_wrap :
    (nextState (exec (.putcolor 1#8 2#8 3#8) { inFlight .putcolor with cx := 1 })).map
      (fun t => (t.cx, t.cy, t.ready, t.readyOwed, t.fb.map Prod.fst)) = some (0, 1, false, false, [3, 4, 5]) := by decide

/-- P1 step 20: the last pixel. -/
theorem test_putcolor_completes_frame :
    (nextState (exec (.putcolor 1#8 2#8 3#8) { inFlight .putcolor with cx := 1, cy := 1 })).map
      (fun t => ((t.cx, t.cy, t.frames), t.ready, t.readyOwed, t.shown.map Prod.fst)) =
      some ((0, 0, 1), true, true, [9, 10, 11]) := by decide

/-! ### Device units (95_test_vectors.md 2.4, 2.5) -/

/-- VC11, second step. -/
theorem test_ready_retry :
    (nextState (dispTurn { inFlight .putcolor with readyOwed := true })).map (fun t => (t.rq, t.ready, t.readyOwed)) =
      some ([0x78#8], false, false) := by decide

/-- VQ8. -/
theorem test_ready_retry_fails_when_full :
    nextState (dispTurn { inFlight .putcolor with readyOwed := true, rq := full }) =
      some { inFlight .putcolor with readyOwed := true, rq := full } := by decide

theorem test_rbr : (nextState (exec (.rbr 0xFF#8) (inFlight .getbr))).map State.rq = some [0x01#8, 0xFF#8, 0x78#8] := by
  decide

/-- VQ4. -/
theorem test_racs_fits :
    (nextState (exec (.racs true) { inFlight .getacs with rq := full.take 6 })).map (fun t => t.rq.length) =
      some 8 := by decide

theorem test_racv_needs_all_eight :
    nextState (exec (.racv 1#16 2#16 3#16) { inFlight .getacv with rq := [0#8] }) =
      some { inFlight .getacv with rq := [0#8] } := by decide

/-- R182: `F5` for a press of button 2. -/
theorem test_btn_press :
    (nextState (exec (.btn 2 true) base)).map (fun t => (t.rq, t.btnReported[2])) = some ([0xF5#8], true) := by decide

/-- VB2. -/
theorem test_btn_full_not_reported :
    nextState (exec (.btn 2 true) { base with rq := full }) = some { base with rq := full } := by decide

/-- VB3, VB5: with BTN_POLL_INTERVAL 1 the first idle step polls button 0. -/
theorem test_idle_polls_button_0 :
    (nextState (dispTurn { base with btnLive := #v[true, false, false, false, false, false] })).map
      (fun t => (t.rq, t.btnIdx)) = some ([0xF1#8], 1) := by decide

/-- S4. -/
theorem test_exit :
    (nextState (dispTurn { base with btnLive := exitLive })).map (fun t => (t.running, t.saved)) =
      some (false, some (50#8, false)) := by decide

/-- VQ2 in ring form. -/
theorem test_ring_wraps :
    ((ringPush 0xB0#8 { mem := full, rd := 3, cnt := 5 }).map fun r => (r.mem.head?, ringSeq r)) =
      some (some 0xB0#8, [0xA3#8, 0xA4#8, 0xA5#8, 0xA6#8, 0xA7#8, 0xB0#8]) := by decide

/-- VE1. -/
theorem test_encode_VE1 :
    encodeFrame [[⟨0x12#8, 0xFF#8, 0x00#8⟩]] = [0xFF#8, 0x00#8, 0x12#8, 0xFF#8, 0xFF#8, 0x00#8] := by decide

/-- S1, corrected. -/
theorem test_encode_S1 :
    encodeFrame frameS1 = [0xFF#8, 0x00#8, 0#8, 0#8, 0#8, 0#8, 0#8, 0#8, 0#8, 0#8, 0#8, 0xFF#8, 0xFF#8, 0#8, 0#8] := by
  decide

/-! ### Witnesses: for each statement with hypotheses, a case that meets them all -/

theorem witness_HostUnitsDecodeToThemselves :
    (Instr.rsvd 0xFE#8).direction = .hostToDevice ∧ (Instr.rsvd 0xFE#8).wellFormed = true := by decide
theorem witness_DeviceUnitsDecodeToThemselves : (Instr.btn 5 true).direction = .deviceToHost := by decide
theorem witness_DecodedHostBytesReencode : decode [0xFF#8, 0x04#8, 0x01#8, 0x09#8] = .ok (.setacs 1#8, [0x09#8]) := by decide
theorem witness_DeviceUnitFirstBytes : (Instr.racv 1#16 2#16 3#16).direction = .deviceToHost := by decide
theorem witness_EncodedFrameLength : frameFits cfg2 frameS1 = true := by decide
theorem witness_StreamingEncoderEqualsEncode :
    frameFits cfg2 frameS1 = true ∧ (encodeFrame frameS1).length ≤ 15 := by decide
theorem witness_ArgumentByteStored_last : ({ base with argn := 1 } : State).argn = Fin.succ (0 : Fin 3) := by decide
theorem witness_ArgumentByteStored_first : ({ base with argn := 3 } : State).argn = Fin.succ (2 : Fin 3) := by decide
theorem witness_EscapeByteOnlySetsEsc : base.argn = 0 ∧ base.esc = false := by decide
theorem witness_DroppedTagsOnlyClearEsc_busy :
    ({ inFlight .getbr with esc := true } : State).argn = 0 ∧ ({ inFlight .getbr with esc := true } : State).esc = true ∧
    ({ inFlight .getbr with esc := true } : State).ready = true ∧ (0x00#8 : Byte) ≠ 0xFF#8 := by decide
theorem witness_RecognizedTagAccepted : escaped.argn = 0 ∧ escaped.esc = true ∧ escaped.ready = false := by decide
theorem witness_DroppedTagsOnlyClearEsc_low :
    7 ≤ (0x07#8 : Byte).toNat ∧ (0x07#8 : Byte).toNat ≤ 0xFE ∧ escaped.argn = 0 ∧ escaped.esc = true ∧ escaped.ready = false := by
  decide
theorem witness_DroppedTagsOnlyClearEsc_high : 7 ≤ (0xFE#8 : Byte).toNat ∧ (0xFE#8 : Byte).toNat ≤ 0xFE := by decide
theorem witness_ColourByteDroppedWhilePutcolorInFlight :
    (inFlight .putcolor).ready = true ∧ (inFlight .putcolor).tag = .putcolor := by decide
theorem witness_ColourByteStored_idle : ¬(base.ready = true ∧ base.tag = .putcolor) ∧ base.cidx = 0 := by decide
theorem witness_ColourByteStored_second :
    ¬(base.ready = true ∧ base.tag = .putcolor) ∧ ({ base with cidx := 1 } : State).cidx = 1 := by decide
theorem witness_ColourByteStored_over_command :
    ¬((inFlight .getbr).ready = true ∧ (inFlight .getbr).tag = .putcolor) ∧
    ({ inFlight .getbr with cidx := 2 } : State).cidx = 2 := by decide
theorem witness_DoubledEscapeStoresFF :
    escaped.argn = 0 ∧ escaped.esc = true ∧ ¬(escaped.ready = true ∧ escaped.tag = .putcolor) := by decide
theorem witness_EscapedComponentDecodes :
    base.esc = false ∧ base.argn = 0 ∧ ¬(base.ready = true ∧ base.tag = .putcolor) := by decide
theorem witness_ReceiverReadsOnlyItsState :
    receive 0x12#8 base = .next (colourStore 0x12#8 base) ∧
    receive 0x12#8 { base with rq := full } = .next (colourStore 0x12#8 { base with rq := full }) ∧
    base.col = ({ base with rq := full } : State).col := ⟨rfl, rfl, rfl⟩
theorem witness_AwaitedArgumentsCompleteTheCommand :
    ({ base with argn := 3 } : State).argn ≠ 0 ∧
    [0xFF#8, 0x00#8, 0x78#8].length = ({ base with argn := 3 } : State).argn.val := by decide
theorem witness_DroppedTagLeavesArgumentAsColour :
    (inFlight .getbr).argn = 0 ∧ (inFlight .getbr).esc = false ∧ (inFlight .getbr).ready = true ∧
    (inFlight .getbr).tag ≠ .putcolor ∧ (0x64#8 : Byte) ≠ 0xFF#8 := by decide
theorem witness_ColoursOverwriteCommandInFlight :
    (inFlight .getbr).argn = 0 ∧ (inFlight .getbr).esc = false ∧ (inFlight .getbr).ready = true ∧
    (inFlight .getbr).tag ≠ .putcolor ∧ (inFlight .getbr).cidx = 0 := by decide
theorem witness_CommandInFlightIsStable_putcolor :
    (inFlight .putcolor).ready = true ∧ (inFlight .putcolor).argn = 0 ∧ (inFlight .putcolor).tag = .putcolor ∧
    receive 0x09#8 (inFlight .putcolor) = .next (inFlight .putcolor) := ⟨rfl, rfl, rfl, rfl⟩
theorem witness_CommandInFlightIsStable_wire :
    (inFlight .getbr).tag ≠ .putcolor ∧
    receive 0x09#8 (inFlight .getbr) = .next (colourStore 0x09#8 (inFlight .getbr)) := ⟨by decide, rfl⟩
theorem witness_command_received : base.argn = 0 ∧ base.esc = false ∧ base.ready = false := by decide
theorem witness_GetBrightness_both :
    3 ≤ rqFree { base with rq := full.take 5 } ∧ rqFree { base with rq := full.take 6 } < 3 := by decide
theorem witness_SetCommands_both : 1 ≤ rqFree { base with rq := full.take 7 } ∧ rqFree { base with rq := full } = 0 := by decide
theorem witness_GetAccelState_both :
    2 ≤ rqFree { base with rq := full.take 6 } ∧ rqFree { base with rq := full.take 7 } < 2 := by decide
theorem witness_SetAccelState_parameters : cfg2.accelZeros = [] ∧ cfg2.legal = true := by decide
theorem witness_GetAccelValues_all :
    8 ≤ rqFree base ∧ ({ base with accelEnabled := true } : State).accelEnabled = true ∧ base.accelEnabled = false ∧
    rqFree { base with rq := full.take 1 } < 8 := by decide
theorem witness_ArgumentReorderingLaw :
    base.argn = 0 ∧ base.esc = false ∧ base.ready = false ∧ 1 ≤ rqFree base := by decide
theorem witness_PutcolorWritesAndAdvances_in_row :
    base.cx < base.cfg.frameW ∧ base.cy < base.cfg.frameH ∧ base.cx + 1 < base.cfg.frameW := by decide
theorem witness_PutcolorWritesAndAdvances_row_end :
    ({ base with cx := 1 } : State).cx + 1 = base.cfg.frameW ∧ ({ base with cx := 1 } : State).cy + 1 < base.cfg.frameH := by
  decide
theorem witness_PutcolorWritesAndAdvances_frame_end :
    ({ base with cx := 1, cy := 1 } : State).cx + 1 = base.cfg.frameW ∧
    ({ base with cx := 1, cy := 1 } : State).cy + 1 = base.cfg.frameH := by decide
theorem witness_PutcolorOutsideTheFrameStops_column :
    ({ base with cx := 2 } : State).cfg.frameW ≤ ({ base with cx := 2 } : State).cx := by decide
theorem witness_PutcolorOutsideTheFrameStops_row :
    ({ base with cy := 2 } : State).cfg.frameH ≤ ({ base with cy := 2 } : State).cy := by decide
theorem witness_PutcolorFrame :
    exec (.putcolor 1#8 2#8 3#8) (inFlight .putcolor) =
      .next { base with tag := .putcolor, cx := 1, fb := pixelWritten 1#8 2#8 3#8 base } ∧
    (∀ c, c < 3 → 11 ≠ fbAddr (inFlight .putcolor).cfg.frameW (inFlight .putcolor).cx (inFlight .putcolor).cy c) :=
  ⟨rfl, by decide⟩
theorem witness_ReadyRetriedUntilQueued_room :
    (inFlight .putcolor).rq.length < (inFlight .putcolor).cfg.rqCapacity ∧
    ({ inFlight .putcolor with readyOwed := true } : State).running = true ∧
    ({ inFlight .putcolor with readyOwed := true } : State).readyOwed = true := by decide
theorem witness_ReadyRetriedUntilQueued_full :
    ({ base with rq := full } : State).cfg.rqCapacity ≤ ({ base with rq := full } : State).rq.length := by decide
theorem witness_ResponseUnits_room : 8 ≤ rqFree base ∧ rqFree { base with rq := full.take 7 } < 2 := by decide
theorem witness_ButtonEdge_changed :
    true ≠ base.btnReported[(5 : Fin 6)] ∧ base.rq.length < base.cfg.rqCapacity := by decide
theorem witness_ButtonEdge_unchanged : false = base.btnReported[(0 : Fin 6)] := by decide
theorem witness_ButtonEdge_full :
    true ≠ ({ base with rq := full } : State).btnReported[(5 : Fin 6)] ∧
    ({ base with rq := full } : State).cfg.rqCapacity ≤ ({ base with rq := full } : State).rq.length := by decide
theorem witness_UnitsWriteOnlyTheirOwn :
    exec .sync (inFlight .sync) = .next { base with tag := .sync } ∧
    exec (.rsvd 7#8) escaped = .next base ∧ (3 : Fin 6) ≠ 2 := ⟨rfl, rfl, by decide⟩
theorem witness_QueuePushesWholeOrRejects :
    ({ base with rq := full } : State).rq.length = ({ base with rq := full } : State).cfg.rqCapacity ∧
    base.rq.length < base.cfg.rqCapacity ∧
    rqFree { base with rq := full.take 6 } < [0x01#8, 0x64#8, 0x78#8].length ∧
    full.length ≤ rqFree base := by decide
theorem witness_PollerSendsOldestByte :
    ({ base with moves := [.txd], txReady := true, rq := [0x78#8] } : State).moves = .txd :: [] ∧
    ({ base with moves := [.txd], txReady := true, rq := [0x78#8] } : State).txReady = true ∧
    ({ base with moves := [.txd], txReady := true, rq := [0x78#8] } : State).rq = 0x78#8 :: [] := by decide
theorem witness_PollerSendsOldestByte_not_enabled :
    ({ base with moves := [.txd] } : State).moves = .txd :: [] ∧ base.txReady = false := by decide
theorem witness_ResponseBytesLeaveInOrder :
    Move.txd ≠ .hostRead ∧ runMove .txd { base with txReady := true, rq := [0x78#8] } =
      .next { base with txReady := true, d2h := [0x78#8] } := ⟨by decide, rfl⟩
theorem witness_OwedReadyEntersQueueFirst :
    ({ inFlight .putcolor with readyOwed := true, moves := [.disp] } : State).readyOwed = true ∧
    step { inFlight .putcolor with readyOwed := true, moves := [.disp] } =
      .next { base with tag := .putcolor, rq := [0x78#8] } := ⟨rfl, rfl⟩
theorem witness_DeferredCommandAnsweredAfterDrain :
    ({ inFlight .getacv with txReady := true, rq := full } : State).running = true ∧
    ({ inFlight .getacv with txReady := true, rq := full } : State).readyOwed = false ∧
    ({ inFlight .getacv with txReady := true, rq := full } : State).ready = true ∧
    ({ inFlight .getacv with txReady := true, rq := full } : State).tag ≠ .putcolor ∧
    ({ inFlight .getacv with txReady := true, rq := full } : State).txReady = true ∧
    8 ≤ base.cfg.rqCapacity ∧ full.length ≤ 8 := by decide
/-- A fair run in which a Ready is owed: it is queued, sent, and then the exit buttons end the session. -/
def owedMoves : Nat → Move
  | 1 => .txd
  | _ => .disp
def owedRun : Nat → State
  | 0 => { inFlight .putcolor with readyOwed := true, btnLive := exitLive, txReady := true }
  | 1 => { base with tag := .putcolor, btnLive := exitLive, txReady := true, rq := [0x78#8] }
  | 2 => { base with tag := .putcolor, btnLive := exitLive, txReady := true, d2h := [0x78#8] }
  | _ + 3 => { base with
      tag := .putcolor, btnLive := exitLive, txReady := true, d2h := [0x78#8], btnIdx := 1, running := false
      saved := some (50#8, false) }
theorem witness_OwedReadyEntersQueueFirst_run :
    IsRun owedMoves owedRun ∧ Fair owedMoves owedRun ∧ 8 ≤ (owedRun 0).cfg.rqCapacity ∧
    (owedRun 0).running = true ∧ (owedRun 0).readyOwed = true := by
  refine ⟨?_, ⟨fun n => ⟨n + 3, by omega, .inl rfl⟩, fun n => ⟨n + 3, by omega, .inl rfl⟩,
    fun n => ⟨n + 3, by omega, .inl rfl⟩⟩, by decide, rfl, rfl⟩
  rintro (_ | _ | _ | n) <;> rfl
/-- A fair run in which a GetBrightness is in flight: answered in the step that ends the session, then sent. -/
def wireMoves : Nat → Move
  | 0 => .disp
  | _ => .txd
def wireRun : Nat → State
  | 0 => { inFlight .getbr with btnLive := exitLive, txReady := true }
  | 1 => { base with
      tag := .getbr, btnLive := exitLive, txReady := true, running := false, saved := some (50#8, false)
      rq := [0x01#8, 0x32#8, 0x78#8] }
  | 2 => { base with
      tag := .getbr, btnLive := exitLive, txReady := true, running := false, saved := some (50#8, false)
      rq := [0x32#8, 0x78#8], d2h := [0x01#8] }
  | 3 => { base with
      tag := .getbr, btnLive := exitLive, txReady := true, running := false, saved := some (50#8, false)
      rq := [0x78#8], d2h := [0x01#8, 0x32#8] }
  | _ + 4 => { base with
      tag := .getbr, btnLive := exitLive, txReady := true, running := false, saved := some (50#8, false)
      d2h := [0x01#8, 0x32#8, 0x78#8] }
theorem witness_DeferredCommandAnsweredAfterDrain_run :
    IsRun wireMoves wireRun ∧ Fair wireMoves wireRun ∧ 8 ≤ (wireRun 0).cfg.rqCapacity ∧
    (wireRun 0).readyOwed = false ∧ (wireRun 0).ready = true ∧ (wireRun 0).tag ≠ .putcolor := by
  refine ⟨?_, ⟨fun n => ⟨n + 4, by omega, .inl rfl⟩, fun n => ⟨n + 4, by omega, .inl rfl⟩,
    fun n => ⟨n + 4, by omega, .inl rfl⟩⟩, by decide, rfl, rfl, by decide⟩
  rintro (_ | _ | _ | _ | n) <;> rfl
/-- R244: the state after reset is quiescent; with a frame begun, of which bytes are still to come, it is not. -/
theorem test_quiescent :
    quiescent base = true ∧ quiescent { base with sender := .writing [0xFF#8] } = false := by decide
theorem witness_RingRefinesQueue_full :
    ringWf { mem := full, rd := 7, cnt := 8 } = true ∧ (8 : Nat) = full.length := by decide
theorem witness_RingRefinesQueue_empty : ringWf { mem := full, rd := 0, cnt := 0 } = true ∧ 0 < full.length := by decide
theorem witness_IdleStepPollsRoundRobin_poll :
    base.running = true ∧ base.readyOwed = false ∧ base.ready = false ∧
    base.btnCtr + 1 = base.cfg.btnPollInterval := by decide
theorem witness_IdleStepPollsRoundRobin_count :
    base.btnCtr + 1 ≠ ({ base with cfg := { cfg2 with btnPollInterval := 2 } } : State).cfg.btnPollInterval := by decide
theorem witness_NoButtonPolledWhileBusy :
    (inFlight .sync).ready = true ∧ dispTurn (inFlight .sync) = .next { base with tag := .sync } := ⟨rfl, rfl⟩
theorem witness_ExitCheck_pressed :
    base.exitCtr + 1 = base.cfg.exitPollInterval ∧ ({ base with btnLive := exitLive } : State).btnLive[4] = true ∧
    ({ base with btnLive := exitLive } : State).btnLive[5] = true := by decide
theorem witness_ExitCheck_not_pressed :
    base.exitCtr + 1 = base.cfg.exitPollInterval ∧ ¬(base.btnLive[4] = true ∧ base.btnLive[5] = true) := by decide
theorem witness_ExitCheck_count :
    base.exitCtr + 1 ≠ ({ base with cfg := { cfg2 with exitPollInterval := 3 } } : State).cfg.exitPollInterval := by decide
theorem witness_BlockFrozenAfterSessionEnd :
    ({ base with running := false, moves := [.rx], h2d := [1#8] } : State).running = false ∧
    step { base with running := false, moves := [.rx], h2d := [1#8] } =
      .next { base with running := false, h2d := [1#8] } := ⟨rfl, rfl⟩
theorem witness_SendWritesWholeFrame :
    frameFits base.cfg frameS1 = true ∧ base.channelOpen = true ∧ sending base = false := by decide
theorem witness_ReadLoopEndsAtReady :
    ({ base with sender := .reading, d2h := [0xF5#8, 0x78#8] } : State).channelOpen = true ∧
    ({ base with sender := .reading, d2h := [0xF5#8, 0x78#8] } : State).sender = .reading ∧
    ({ base with sender := .reading, d2h := [0xF5#8, 0x78#8] } : State).d2h = 0xF5#8 :: [0x78#8] ∧
    (0xF5#8 : Byte) ≠ 0x78#8 := by decide
theorem witness_FailureIsHostSideAndCloseFlushes :
    ({ base with sender := .writing [1#8] } : State).sender = .writing [1#8] ∧
    ({ base with sender := .writing [1#8] } : State).channelOpen = true := by decide
theorem witness_FailureIsHostSideAndCloseFlushes_reading :
    ({ base with sender := .reading } : State).sender = .reading ∧
    ({ base with sender := .reading } : State).channelOpen = true := by decide
theorem witness_FailureIsHostSideAndCloseFlushes_no_send :
    base.sender = .idle ∧ ({ base with channelOpen := false } : State).channelOpen = false := by decide
theorem witness_StepRunsReceivedUnit_argument :
    ({ base with argn := 1, moves := [.rx], h2d := [0xFF#8, 0#8] } : State).moves = .rx :: [] ∧ base.running = true ∧
    ({ base with argn := 1, moves := [.rx], h2d := [0xFF#8, 0#8] } : State).h2d = 0xFF#8 :: [0#8] := by decide
theorem witness_StepRunsReceivedUnit :
    ({ base with moves := [.rx], h2d := [0x12#8] } : State).moves = .rx :: [] ∧ base.running = true ∧
    ({ base with moves := [.rx], h2d := [0x12#8] } : State).h2d = 0x12#8 :: [] ∧ base.argn = 0 ∧
    decode (unitBytes 0x12#8 { base with moves := [.rx], h2d := [0x12#8] }) = .ok (.color 0x12#8, []) := by decide
theorem witness_StepRunsReceivedUnit_escaped :
    decode (unitBytes 0xFF#8 escaped) = .ok (.litff, []) ∧ decode (unitBytes 0x07#8 escaped) = .ok (.rsvd 0x07#8, []) := by
  decide
theorem witness_StepRunsCommandInSlot :
    ({ inFlight .setbr with moves := [.disp] } : State).moves = .disp :: [] ∧ (inFlight .setbr).running = true ∧
    (inFlight .setbr).readyOwed = false ∧ (inFlight .setbr).ready = true := by decide
theorem witness_Inv : Inv base := by
  refine ⟨by decide, by decide, by decide, ⟨by decide, by decide⟩, by decide, by decide, ⟨by decide, by decide⟩,
    ⟨by decide, by decide⟩, List.Pairwise.nil, ?_⟩
  intro p hp
  cases hp
theorem witness_InvariantKeptByEveryStep :
    Inv base ∧ step { base with moves := [.rx] } = .next base := ⟨witness_Inv, rfl⟩
theorem witness_InvariantHoldsAtReset : cfg2.legal = true := by decide
theorem witness_ParametersFixedForTheRun : step { base with moves := [.disp] } = .next { base with btnIdx := 1 } := rfl
theorem witness_DispatcherOnlyClearsReady : dispTurn (inFlight .sync) = .next { base with tag := .sync } := rfl
theorem witness_LatchOnlyAtFrameCompletion :
    step { inFlight .putcolor with cx := 1, cy := 1, moves := [.disp] } =
      .next { inFlight .putcolor with
        readyOwed := true, frames := 1
        fb := pixelWritten 0#8 0#8 0#8 { base with cx := 1, cy := 1 }
        shown := pixelWritten 0#8 0#8 0#8 { base with cx := 1, cy := 1 } } := rfl
theorem witness_FrameBufferWrittenOnlyByPutcolor :
    step { inFlight .putcolor with moves := [.disp] } =
      .next { base with tag := .putcolor, cx := 1, fb := pixelWritten 0#8 0#8 0#8 base } ∧
    pixelWritten 0#8 0#8 0#8 base ≠ base.fb := 
  ⟨rfl, fun h => absurd (congrArg List.length h) (by decide)⟩
theorem witness_BlockNeverFaults : Inv base := witness_Inv
theorem witness_FrameRoundTrip :
    base.cfg.legal = true ∧ frameFits base.cfg frameS1 = true ∧ base.running = true ∧ base.argn = 0 ∧
    base.esc = false ∧ base.ready = false ∧ base.readyOwed = false ∧ base.cidx = 0 ∧
    ¬(base.btnLive[4] = true ∧ base.btnLive[5] = true) ∧ 1 ≤ rqFree base ∧
    pixelAt frameS1 1 1 = some ⟨0xFF#8, 0#8, 0#8⟩ := by decide

end Sys2Proof.Tests
end

section
/-! The state after reset (10_state.md R33), and the constraints on the parameters it rests on. -/

namespace Sys2Proof

/-- The constraints of R3, R4, R5, R7, R21 and U3, one conjunct each. -/
theorem Config.legal_iff (c : Config) :
    c.legal = true ↔
      1 ≤ c.frameW ∧ 1 ≤ c.frameH ∧ 8 ≤ c.rqCapacity ∧
      c.brMin.toNat ≤ c.brightnessInit.toNat ∧ c.brightnessInit.toNat ≤ c.brMax.toNat ∧
      1 ≤ c.btnPollInterval ∧ 1 ≤ c.exitPollInterval ∧ 0x01#8 ∉ c.accelZeros := by
  simp [Config.legal, and_assoc]

namespace Machine

@[simp] theorem resetWith_brightness (c : Config) :
    (State.resetWith c).brightness = c.brightnessInit := rfl

/-- D29: no button has been reported as pressed. -/
theorem resetWith_btnReported_getElem (c : Config) (i : Fin 6) :
    (State.resetWith c).btnReported[i] = false :=
  Vector.getElem_replicate i.isLt

/-- R21: `BRIGHTNESS_INIT` lies between `BR_MIN` and `BR_MAX`. -/
theorem resetWith_brightness_in_range {c : Config} (h : c.legal = true) :
    c.brMin.toNat ≤ (State.resetWith c).brightness.toNat ∧
    (State.resetWith c).brightness.toNat ≤ c.brMax.toNat := by
  obtain ⟨-, -, -, hmin, hmax, -⟩ := c.legal_iff.1 h
  exact ⟨hmin, hmax⟩

/-- Settles O54: each element's value is a field of `State.resetWith`; the six reported buttons and
the range of the brightness are the two lemmas above. -/
theorem resetLeavesTheTableOfValues : Obligations.ResetLeavesTheTableOfValues := by
  intro c
  exact ⟨rfl, rfl, rfl, rfl, rfl, rfl, rfl, resetWith_brightness c, rfl,
    resetWith_btnReported_getElem c, rfl, rfl, rfl, rfl, rfl, rfl, rfl,
    resetWith_brightness_in_range⟩

end Machine
end Sys2Proof
end

section
/-! The first bytes of the device-to-host units (30_encoding.md section 4), and the reordering of the
SetNumberDisplay arguments from the wire to the display (30_encoding.md section 3). -/

namespace Sys2Proof

/-! ### First bytes of the device units -/

/-- R76: the two header bytes of a GetAccelState response. -/
theorem accelHeader_eq (e : Bool) : accelHeader e = if e then 0xE1#8 else 0xE0#8 := by
  cases e <;> rfl

/-- R78: the fields of a button-event byte do not overlap, so their union is a sum. -/
theorem buttonByte_toNat (i : Fin 6) (p : Bool) :
    (buttonByte i p).toNat = 0xF0 + 2 * i.val + p.toNat := by
  revert i p; decide

/-- R78: a button-event byte is one of `0xF0..0xFB`. -/
theorem buttonByte_in_range (i : Fin 6) (p : Bool) :
    0xF0 ≤ (buttonByte i p).toNat ∧ (buttonByte i p).toNat ≤ 0xFB := by
  have hp : p.toNat ≤ 1 := p.toNat_le
  rw [buttonByte_toNat]
  omega

/-- Settles O5: the header byte of each device unit in turn; the two that are computed are the header
of GetAccelState and the button-event byte. -/
theorem deviceUnitFirstBytes : Obligations.DeviceUnitFirstBytes := by
  intro i hi
  cases i with
  | ready => exact ⟨_, _, rfl, .inl rfl⟩
  | rbr v => exact ⟨_, _, rfl, .inr (.inl rfl)⟩
  | racv x y z => exact ⟨_, _, rfl, .inr (.inr (.inl rfl))⟩
  | racs e =>
    refine ⟨_, _, rfl, ?_⟩
    rw [accelHeader_eq]
    cases e <;> simp
  | btn n p => exact ⟨_, _, rfl, .inr (.inr (.inr (.inr (.inr (buttonByte_in_range n p)))))⟩
  | color | litff | sync | getbr | setbr | getacs | setacs | getacv | setnum | rsvd | putcolor => cases hi

/-! ### The 17-bit value of three bytes -/

namespace Machine

/-- R73: the three fields do not overlap, so their union is a sum; only bit 0 of `b2` counts. -/
theorem numberOf_toNat (b0 b1 b2 : Byte) :
    (numberOf b0 b1 b2).toNat = b0.toNat + 256 * b1.toNat + 65536 * (b2.toNat % 2) := by
  have h0 : b0.toNat < 2 ^ 8 := b0.isLt
  have h1 : b1.toNat < 2 ^ 8 := b1.isLt
  have h01 : b1.toNat <<< 8 + b0.toNat < 2 ^ 16 := by rw [Nat.shiftLeft_eq]; omega
  have hunion : (numberOf b0 b1 b2).toNat = b0.toNat ||| b1.toNat <<< 8 ||| (b2.toNat % 2) <<< 16 := by
    simp (disch := omega) only [numberOf, BitVec.toNat_or, BitVec.toNat_shiftLeft,
      BitVec.toNat_setWidth, BitVec.toNat_and, BitVec.toNat_ofNat, Nat.shiftLeft_eq,
      Nat.and_one_is_mod, Nat.mod_eq_of_lt]
  calc (numberOf b0 b1 b2).toNat
      = (b2.toNat % 2) <<< 16 ||| (b1.toNat <<< 8 ||| b0.toNat) := by
        rw [hunion, Nat.or_comm, Nat.or_comm b0.toNat]
    _ = (b2.toNat % 2) <<< 16 + (b1.toNat <<< 8 + b0.toNat) := by
        rw [← Nat.shiftLeft_add_eq_or_of_lt h0, ← Nat.shiftLeft_add_eq_or_of_lt h01]
    _ = b0.toNat + 256 * b1.toNat + 65536 * (b2.toNat % 2) := by
        rw [Nat.shiftLeft_eq, Nat.shiftLeft_eq]; omega

/-- R82: the operands of `SETNUMV v` give `v` back. -/
theorem numberOf_extract (v : U17) :
    numberOf (v.extractLsb' 0 8) (v.extractLsb' 8 8) ((v.extractLsb' 16 1).setWidth 8) = v := by
  apply BitVec.eq_of_toNat_eq
  have hv : v.toNat < 131072 := v.isLt
  rw [numberOf_toNat]
  simp only [BitVec.extractLsb'_toNat, BitVec.toNat_setWidth, Nat.shiftRight_eq_div_pow]
  omega

/-! ### Receipt of a unit byte by byte -/

/-- R102: an awaited argument byte goes to the slot of the decremented counter. -/
theorem receive_argument {s : State} {n : Fin 3} (b : Byte) (ha : s.argn = n.succ) :
    receive b s = .next { s with
      argn := n.castSucc
      args := s.args.set n.val b n.isLt
      ready := if n = 0 then true else s.ready } := by
  simp [receive, argArm, ha]

/-- R103: the escape byte at a unit boundary. -/
theorem receive_escByte {s : State} (ha : s.argn = 0) (he : s.esc = false) :
    receive escByte s = .next (escapeSeen s) := by
  simp [receive, ha, he]

/-- R106: a recognized tag byte after an escape, with no command in flight. -/
theorem receive_tag {s : State} {b : Byte} {t : Tag} (ha : s.argn = 0) (he : s.esc = true)
    (hr : s.ready = false) (hb : b ≠ escByte) (ht : tagOfByte b = some t) :
    receive b s = .next (acceptTag t (clearEsc s)) := by
  simp [receive, afterEscape, ha, he, hr, hb, ht]

/-- Written from the last register to the first, the argument registers hold nothing else. -/
theorem args_set_three (args : Vector Byte 3) (b0 b1 b2 : Byte) :
    ((args.set 2 b0).set 1 b1).set 0 b2 = #v[b2, b1, b0] := by
  ext i hi
  match i, hi with
  | 0, _ | 1, _ | 2, _ => simp

/-- R102: three argument bytes fill the argument registers in reverse order of arrival. -/
theorem receiveAll_three_arguments {s : State} (b0 b1 b2 : Byte) (ha : s.argn = 3) :
    receiveAll [b0, b1, b2] s = .next { s with argn := 0, args := #v[b2, b1, b0], ready := true } := by
  rw [receiveAll_cons, receive_argument (n := 2) b0 ha, andThen_next,
    receiveAll_cons, receive_argument (n := 1) b1 rfl, andThen_next,
    receiveAll_cons, receive_argument (n := 0) b2 rfl, andThen_next, ← args_set_three s.args b0 b1 b2]
  rfl

/-- R73, R106: the bytes of SETNUM leave it in the slot, its arguments in reverse order of arrival. -/
theorem receiveAll_setnum {s : State} (b0 b1 b2 : Byte) (ha : s.argn = 0) (he : s.esc = false)
    (hr : s.ready = false) :
    receiveAll (encode (.setnum b0 b1 b2)) s =
      .next { s with tag := .setnum, args := #v[b2, b1, b0], ready := true } := by
  have hesc : receive 0xFF#8 s = .next (escapeSeen s) := receive_escByte ha he
  have htag : receive 0x06#8 (escapeSeen s) = .next (acceptTag .setnum (clearEsc (escapeSeen s))) :=
    receive_tag ha rfl hr (by decide) rfl
  rw [encode, receiveAll_cons, hesc, andThen_next, receiveAll_cons, htag, andThen_next,
    receiveAll_three_arguments b0 b1 b2 rfl, ha, he]
  rfl

/-! ### SETNUM from the wire to the display -/

/-- R142: with one byte free, SETNUM gives the display its value, queues Ready and is consumed. -/
theorem exec_setnum_of_room {s : State} (b0 b1 b2 : Byte) (hq : 1 ≤ rqFree s) :
    exec (.setnum b0 b1 b2) s = .next { s with
      numberDisplay := numberOf b0 b1 b2, rq := s.rq ++ [readyByte], ready := false } := by
  have hq : rqFree s ≠ 0 := by omega
  simp only [exec, execSetnum]
  rw [applyAndAck_eq rfl rfl, if_neg hq]

/-- R73 from the wire to the display: SETNUM, received with room for its Ready and then dispatched. -/
theorem setnum_received_then_displayed {s : State} (b0 b1 b2 : Byte) (ha : s.argn = 0)
    (he : s.esc = false) (hr : s.ready = false) (hq : 1 ≤ rqFree s) :
    ∃ t u, receiveAll (encode (.setnum b0 b1 b2)) s = .next t ∧ exec (slotInstr t) t = .next u ∧
      t.args = #v[b2, b1, b0] ∧ u.numberDisplay = numberOf b0 b1 b2 :=
  ⟨_, _, receiveAll_setnum b0 b1 b2 ha he hr, exec_setnum_of_room b0 b1 b2 hq, rfl, rfl⟩

/-- Settles O29: both parts are the receipt and dispatch of a SETNUM; the first then reads `numberOf`
as a number, the second takes it of the bytes of `v`. -/
theorem argumentReorderingLaw : Obligations.ArgumentReorderingLaw := by
  refine ⟨fun b0 b1 b2 s ha he hr hq => ?_, fun v s ha he hr hq => ?_⟩
  · obtain ⟨t, u, ht, hu, hargs, hd⟩ := setnum_received_then_displayed b0 b1 b2 ha he hr hq
    exact ⟨t, u, ht, hu, hargs, hd ▸ numberOf_toNat b0 b1 b2⟩
  · obtain ⟨t, u, ht, hu, -, hd⟩ := setnum_received_then_displayed (v.extractLsb' 0 8)
      (v.extractLsb' 8 8) ((v.extractLsb' 16 1).setWidth 8) ha he hr hq
    exact ⟨t, u, ht, hu, hd.trans (numberOf_extract v)⟩

end Machine
end Sys2Proof
end

section
/-! The encode side of the Frame Codec (40_encoder.md): the escaped components of a frame and their
length (R91, R94), the bytes of the pseudo-unit `FRAME` (30_encoding.md R82), and the streaming encoder
(R96), whose position is an index into the components of the frame. -/

namespace Sys2Proof.Machine

/-! ### The components of a frame -/

/-- R3: a frame that fits has `FRAME_H` rows of `FRAME_W` pixels. -/
theorem frameFits_iff {c : Config} {f : Frame} :
    frameFits c f = true ↔ f.length = c.frameH ∧ ∀ row ∈ f, row.length = c.frameW := by
  simp [frameFits]

@[simp] theorem pixelComponents_length (q : Pixel) : (pixelComponents q).length = 3 := rfl

theorem rowComponents_length {w : Nat} {row : List Pixel} (hrow : row.length = w) :
    (row.flatMap pixelComponents).length = 3 * w := by
  simp [List.length_flatMap, hrow, mul_comm]

theorem frameComponents_length {w : Nat} {f : Frame} (hf : ∀ row ∈ f, row.length = w) :
    (frameComponents f).length = 3 * w * f.length := by
  rw [frameComponents, List.length_flatMap, List.map_congr_left fun row hr => rowComponents_length (hf row hr)]
  simp [mul_comm]

/-- R91: a doubled component is one byte longer. -/
theorem flatMap_escComp_length (cs : List Byte) :
    (cs.flatMap escComp).length = cs.length + cs.count escByte := by
  induction cs with
  | nil => rfl
  | cons b cs ih =>
    rw [List.flatMap_cons, List.length_append, ih, List.length_cons]
    by_cases hb : b = escByte
    · rw [hb, List.count_cons_self, escComp, if_pos rfl, List.length_cons, List.length_singleton]; omega
    · rw [List.count_cons_of_ne hb, escComp, if_neg hb, List.length_singleton]; omega

/-- Settles O6: the length is that of the preamble and of the escaped components, of which
`count255` are doubled; the other clauses are the definitions of `escComp` and `encodeFrame`. -/
theorem encodedFrameLength : Obligations.EncodedFrameLength := by
  refine ⟨fun v => rfl, fun c f hfit => ?_⟩
  obtain ⟨hheight, hwidth⟩ := frameFits_iff.1 hfit
  have hcomps : (frameComponents f).length = 3 * c.frameW * c.frameH :=
    hheight ▸ frameComponents_length hwidth
  refine ⟨?_, hcomps ▸ List.count_le_length, rfl, rfl⟩
  simp only [encodeFrame, count255, List.length_cons, flatMap_escComp_length, hcomps]
  omega

/-! ### The pseudo-unit FRAME -/

/-- R82: the units of `FRAME F` are SYNC and `COMP` of every component, in row-major order. -/
theorem frameUnits_eq (f : Frame) : frameUnits f = .sync :: (frameComponents f).map compUnit := by
  have hpixel : pixelUnits = fun q => (pixelComponents q).map compUnit := rfl
  simp only [frameUnits, frameComponents, List.map_flatMap, hpixel]

/-- R82: the bytes of `COMP` of every component are the escaped components. -/
theorem encodeUnits_map_compUnit (cs : List Byte) :
    encodeUnits (cs.map compUnit) = cs.flatMap escComp := by
  simp only [encodeUnits, List.flatMap_map, encode_compUnit]

theorem encodeUnits_frameUnits (f : Frame) : encodeUnits (frameUnits f) = encodeFrame f := by
  rw [frameUnits_eq, encodeUnits_cons, encodeUnits_map_compUnit]
  rfl

/-! ### A position of the streaming encoder as an index into the components -/

/-- Entry `(y, x)` of a concatenation in which every element gives `w` entries. -/
theorem getElem?_flatMap_of_length_eq {α β : Type} {g : α → List β} {w x : Nat} (hx : x < w)
    {as : List α} (hg : ∀ a ∈ as, (g a).length = w) (y : Nat) :
    (as.flatMap g)[y * w + x]? = as[y]?.bind fun a => (g a)[x]? := by
  induction as generalizing y with
  | nil => simp
  | cons a as ih =>
    obtain ⟨ha, has⟩ := List.forall_mem_cons.1 hg
    cases y with
    | zero => simp [List.getElem?_append_left (ha.symm ▸ hx)]
    | succ y =>
      have hindex : (y + 1) * w + x = (g a).length + (y * w + x) := by rw [ha, Nat.succ_mul]; omega
      simpa [hindex, List.getElem?_append_right] using ih has y

/-- The component the position `(y, x, c)` of R96 stands at; none when the frame is done. -/
def componentAt (f : Frame) (p : EncPos) : Option Byte :=
  (pixelAt f p.x p.y).map (pixelComponent · p.c)

/-- R92: how many components come before the position in the traversal order. -/
def encIndex (w : Nat) (p : EncPos) : Nat := p.y * (3 * w) + (p.x * 3 + p.c.val)

theorem pixelComponents_getElem? (q : Pixel) (c : Fin 3) :
    (pixelComponents q)[c.val]? = some (pixelComponent q c) := by
  fin_cases c <;> rfl

/-- R92: in a frame `w` wide, `encIndex` is the index of the component at the position. -/
theorem frameComponents_getElem?_encIndex {w : Nat} {f : Frame} {p : EncPos}
    (hf : ∀ row ∈ f, row.length = w) (hx : p.x < w) :
    (frameComponents f)[encIndex w p]? = componentAt f p := by
  have hcol : p.x * 3 + p.c.val < 3 * w := by omega
  have hrow (row : List Pixel) :
      (row.flatMap pixelComponents)[p.x * 3 + p.c.val]? = row[p.x]?.map (pixelComponent · p.c) := by
    rw [getElem?_flatMap_of_length_eq p.c.isLt fun q _ => pixelComponents_length q]
    simp only [pixelComponents_getElem?, Option.map_eq_bind, Function.comp_def]
  rw [frameComponents, encIndex,
    getElem?_flatMap_of_length_eq hcol fun row hr => rowComponents_length (hf row hr)]
  simp only [hrow, componentAt, pixelAt, Option.map_bind, Function.comp_def]

theorem componentAt_of_drop_eq {w : Nat} {f : Frame} {p : EncPos} {cs : List Byte}
    (hf : ∀ row ∈ f, row.length = w) (hx : p.x < w)
    (hcs : (frameComponents f).drop (encIndex w p) = cs) : componentAt f p = cs.head? := by
  rw [← frameComponents_getElem?_encIndex hf hx, ← hcs, List.head?_drop]

/-- R92: the next position has the next index. -/
theorem encIndex_encAdvance {w : Nat} {p : EncPos} (hx : p.x < w) :
    encIndex w (encAdvance w p) = encIndex w p + 1 := by
  unfold encAdvance
  split_ifs with hred hgreen hnext
  · simp only [encIndex]; omega
  · simp only [encIndex]; omega
  · simp only [encIndex]; omega
  · have hw : w = p.x + 1 := by omega
    simp only [encIndex, Nat.succ_mul]; omega

/-! ### The streaming encoder -/

/-- Where the encoder is about to send a component: after the preamble, inside a row, with no second half
of a doubled escape owed. -/
structure AtComponent (w : Nat) (p : EncPos) : Prop where
  sent : p.sent = 2
  owed : p.owed = false
  inRow : p.x < w

theorem AtComponent.advance {w : Nat} {p : EncPos} (hp : AtComponent w p) :
    AtComponent w (encAdvance w p) := by
  obtain ⟨hsent, -, hx⟩ := hp
  unfold encAdvance
  split_ifs with hred hgreen hnext
  · exact ⟨hsent, rfl, hx⟩
  · exact ⟨hsent, rfl, hx⟩
  · exact ⟨hsent, rfl, hnext⟩
  · exact ⟨hsent, rfl, Nat.zero_lt_of_lt hx⟩

/-- A frame of empty rows has no pixel. -/
theorem pixelAt_of_width_zero {f : Frame} (hf : ∀ row ∈ f, row.length = 0) (x y : Nat) :
    pixelAt f x y = none := by
  refine Option.bind_eq_none_iff.2 fun row hrow => ?_
  rw [List.length_eq_zero_iff.1 (hf row (List.mem_of_getElem? hrow)), List.getElem?_nil]

/-- R96: where the frame is done, nothing follows. -/
theorem encStream_of_componentAt_none {w : Nat} {f : Frame} {p : EncPos} (hsent : p.sent = 2)
    (howed : p.owed = false) (hb : componentAt f p = none) (n : Nat) : encStream w f n p = [] := by
  have hq : pixelAt f p.x p.y = none := Option.map_eq_none_iff.1 hb
  cases n with
  | zero => rfl
  | succ n => simp [encStream, encNext, hsent, howed, hq]

/-- R91, R96: at a component the stream is its escape, one call per byte, and then that of the next position. -/
theorem encStream_of_componentAt_some {w : Nat} {f : Frame} {p : EncPos} {b : Byte}
    (hp : AtComponent w p) (hb : componentAt f p = some b) (n : Nat) :
    encStream w f (n + (escComp b).length) p = escComp b ++ encStream w f n (encAdvance w p) := by
  obtain ⟨hsent, howed, -⟩ := hp
  obtain ⟨q, hq, rfl⟩ := Option.map_eq_some_iff.1 hb
  by_cases hesc : pixelComponent q p.c = escByte
  · have hfirst : encNext w f p = some (escByte, { p with owed := true }) := by
      simp [encNext, hsent, howed, hq, hesc]
    have hsecond : encNext w f { p with owed := true } = some (escByte, encAdvance w p) := by
      simp [encNext, encAdvance, hsent]
    simp [encStream, escComp, hesc, hfirst, hsecond]
  · simp [encStream, encNext, escComp, hsent, howed, hq, hesc]

/-- R96: from a component on, enough calls give the escaped components that are left. -/
theorem encStream_of_atComponent {w : Nat} {f : Frame} (hf : ∀ row ∈ f, row.length = w)
    {cs : List Byte} {p : EncPos} {n : Nat} (hp : AtComponent w p)
    (hcs : (frameComponents f).drop (encIndex w p) = cs) (hn : (cs.flatMap escComp).length ≤ n) :
    encStream w f n p = cs.flatMap escComp := by
  induction cs generalizing p n with
  | nil => exact encStream_of_componentAt_none hp.sent hp.owed (componentAt_of_drop_eq hf hp.inRow hcs) n
  | cons b cs ih =>
    have hnext : (frameComponents f).drop (encIndex w (encAdvance w p)) = cs := by
      rw [encIndex_encAdvance hp.inRow, ← List.tail_drop, hcs, List.tail_cons]
    rw [List.flatMap_cons, List.length_append] at hn
    obtain ⟨m, rfl⟩ := Nat.exists_eq_add_of_le' (Nat.le_of_add_right_le hn)
    rw [encStream_of_componentAt_some hp (componentAt_of_drop_eq hf hp.inRow hcs),
      ih hp.advance hnext (by omega), List.flatMap_cons]

/-- R96: the first two calls give the preamble. -/
theorem encStream_encStart (w : Nat) (f : Frame) (n : Nat) :
    encStream w f (n + 2) encStart = escByte :: 0x00#8 :: encStream w f n { encStart with sent := 2 } := rfl

/-- R96: the streaming encoder gives the bytes of `encode(F)`, and then nothing. -/
theorem encStream_eq_encodeFrame {w : Nat} {f : Frame} {n : Nat} (hf : ∀ row ∈ f, row.length = w)
    (hn : (encodeFrame f).length ≤ n) : encStream w f n encStart = encodeFrame f := by
  obtain ⟨m, rfl⟩ := Nat.exists_eq_add_of_le' (show 2 ≤ n from (Nat.le_add_left ..).trans hn)
  have hm : ((frameComponents f).flatMap escComp).length ≤ m := by simpa [encodeFrame] using hn
  rw [encStream_encStart, encodeFrame]
  congr 2
  rcases Nat.eq_zero_or_pos w with rfl | hw
  · have hnone : componentAt f { encStart with sent := 2 } = none := by
      rw [componentAt, pixelAt_of_width_zero hf, Option.map_none]
    have hcomps : frameComponents f = [] := by
      simpa using frameComponents_length hf
    rw [encStream_of_componentAt_none rfl rfl hnone, hcomps, List.flatMap_nil]
  · have hstart : encIndex w { encStart with sent := 2 } = 0 := by simp [encIndex, encStart]
    exact encStream_of_atComponent hf ⟨rfl, rfl, hw⟩ (by rw [hstart, List.drop_zero]) hm

/-- Settles O7: the streaming encoder's position runs through the indices of the components, and each unit
of `FRAME F` has the bytes of its escaped component. -/
theorem streamingEncoderEqualsEncode : Obligations.StreamingEncoderEqualsEncode :=
  ⟨fun _ _ _ hfit hn => encStream_eq_encodeFrame (frameFits_iff.1 hfit).2 hn,
    fun f => ⟨encodeUnits_frameUnits f, frameUnits_eq f⟩⟩

end Sys2Proof.Machine
end

section
/-! The Command Receiver byte by byte (41_receiver.md): one equation for each arm of `rx_step` (R101), the
colour arm with and without its guard (R109, R110), and the receipt of an escaped component (R117). -/

namespace Sys2Proof.Machine

/-! ### Argument and escape -/

/-- Settles O8: the equation of the argument arm. -/
theorem argumentByteStored : Obligations.ArgumentByteStored :=
  fun b _ _ ha => receive_argument b ha

/-- Settles O9: the equation of the escape arm. -/
theorem escapeByteOnlySetsEsc : Obligations.EscapeByteOnlySetsEsc :=
  fun _ ha he => receive_escByte ha he

/-! ### Tag bytes -/

/-- R64: a byte from 0x07 on is not recognized. -/
theorem tagOfByte_eq_none {t : Byte} (ht : 7 ≤ t.toNat) : tagOfByte t = none := by
  have hne (k : Byte) (hk : k.toNat < 7) : t ≠ k := by
    rintro rfl
    omega
  simp [tagOfByte, hne]

/-- R64: the escape byte is not a recognized tag. -/
theorem ne_escByte_of_tagOfByte {b : Byte} {t : Tag} (ht : tagOfByte b = some t) : b ≠ escByte := by
  rintro rfl
  rw [tagOfByte_eq_none (by decide)] at ht
  cases ht

/-- R105: a tag byte while a command is in flight, recognized or not. -/
theorem receive_tag_of_ready {s : State} {b : Byte} (ha : s.argn = 0) (he : s.esc = true)
    (hr : s.ready = true) (hb : b ≠ escByte) : receive b s = .next (clearEsc s) := by
  simp [receive, afterEscape, ha, he, hr, hb]

/-- R107: a reserved tag with no command in flight is RSVD. -/
theorem receive_reserved {s : State} {t : Byte} (ha : s.argn = 0) (he : s.esc = true)
    (hr : s.ready = false) (ht : t ≠ escByte) (hn : tagOfByte t = none) :
    receive t s = exec (.rsvd t) s := by
  simp [receive, afterEscape, ha, he, hr, ht, hn]

/-- R107: RSVD clears `esc` and does nothing else. -/
theorem exec_rsvd (t : Byte) (s : State) : exec (.rsvd t) s = .next (clearEsc s) := rfl

/-- Settles O10: each of the seven bytes is accepted as its tag; what `accept_tag` then writes is
computed from the tag's argument count. -/
theorem recognizedTagAccepted : Obligations.RecognizedTagAccepted := by
  intro s ha he hr
  have accepted (b : Byte) (t : Tag) (ht : tagOfByte b = some t) :
      receive b s = .next (acceptTag t (clearEsc s)) :=
    receive_tag ha he hr (ne_escByte_of_tagOfByte ht) ht
  exact ⟨accepted 0x00#8 .sync rfl, accepted 0x01#8 .getbr rfl, accepted 0x02#8 .setbr rfl,
    accepted 0x03#8 .getacs rfl, accepted 0x04#8 .setacs rfl, accepted 0x05#8 .getacv rfl,
    accepted 0x06#8 .setnum rfl⟩

/-- Settles O11: a busy drop and a reserved tag both end in `clearEsc`; a byte from 0x07 to 0xFE is
neither recognized nor the escape. -/
theorem droppedTagsOnlyClearEsc : Obligations.DroppedTagsOnlyClearEsc := by
  refine ⟨fun b s ha he hr hb => receive_tag_of_ready ha he hr hb,
    fun t s hlow hhigh ha he hr => ?_, exec_rsvd⟩
  have ht : t ≠ escByte := by
    rintro rfl
    exact absurd hhigh (by decide)
  rw [receive_reserved ha he hr ht (tagOfByte_eq_none hlow), exec_rsvd]
  rfl

/-! ### Colour components -/

/-- R109, R110: COLOR runs the colour arm. -/
theorem exec_color (b : Byte) (s : State) : exec (.color b) s = .next (colourArm b s) := rfl

/-- R108: LITFF clears the escape and runs the colour arm. -/
theorem exec_litff (s : State) : exec .litff s = .next (colourArm escByte (clearEsc s)) := rfl

/-- R109: while a PUTCOLOR is in flight the component is dropped. -/
theorem colourArm_of_busy {s : State} (v : Byte) (h : s.ready = true ∧ s.tag = .putcolor) :
    colourArm v s = s := by
  rcases colourArm_cases v s with ⟨_, _, e⟩ | ⟨hn, _⟩
  · exact e
  · exact absurd h hn

/-- R110: with the guard false the component is stored. -/
theorem colourArm_of_not_busy {s : State} (v : Byte) (h : ¬(s.ready = true ∧ s.tag = .putcolor)) :
    colourArm v s = colourStore v s := by
  rcases colourArm_cases v s with ⟨hr, ht, _⟩ | ⟨_, e⟩
  · exact absurd ⟨hr, ht⟩ h
  · exact e

/-- R110: the component index counts modulo 3. -/
theorem nextComponent_eq (i : Fin 3) : nextComponent i = if i = 2 then 0 else i + 1 := by
  revert i; decide

/-- R110: what the store of a component writes. -/
theorem colourStore_eq (v : Byte) (s : State) :
    colourStore v s = { s with
      col := s.col.set s.cidx.val v s.cidx.isLt
      cidx := if s.cidx = 2 then 0 else s.cidx + 1
      tag := if s.cidx = 2 then .putcolor else s.tag
      ready := if s.cidx = 2 then true else s.ready } := by
  rw [colourStore, nextComponent_eq]

/-- R109, R110: a colour byte at a unit boundary is COLOR. -/
theorem receive_color {s : State} {b : Byte} (ha : s.argn = 0) (he : s.esc = false)
    (hb : b ≠ escByte) : receive b s = exec (.color b) s := by
  simp [receive, ha, he, hb]

/-- R108: a doubled escape is LITFF. -/
theorem receive_litff {s : State} (ha : s.argn = 0) (he : s.esc = true) :
    receive escByte s = exec .litff s := by
  simp [receive, afterEscape, ha, he]

/-- Settles O12: both units run the colour arm, whose guard is true. -/
theorem colourByteDroppedWhilePutcolorInFlight :
    Obligations.ColourByteDroppedWhilePutcolorInFlight := by
  intro b s hr ht
  rw [exec_color, exec_litff, colourArm_of_busy b ⟨hr, ht⟩,
    colourArm_of_busy (s := clearEsc s) escByte ⟨hr, ht⟩]
  exact ⟨rfl, rfl⟩

/-- Settles O13: the store of a component, read at each component index. -/
theorem colourByteStored : Obligations.ColourByteStored := by
  intro b s hguard
  rw [exec_color, colourArm_of_not_busy b hguard]
  refine ⟨fun h => ?_, fun h => ?_, fun h => ?_⟩ <;> simp [colourStore, nextComponent, h]

/-- Settles O14: LITFF is the colour arm with the escape cleared; its guard reads neither `esc` nor
`cidx`. -/
theorem doubledEscapeStoresFF : Obligations.DoubledEscapeStoresFF := by
  refine fun s => ⟨receive_litff, fun hbusy => ?_, fun hguard => ?_⟩
  · rw [exec_litff, colourArm_of_busy (s := clearEsc s) escByte hbusy]
    rfl
  · rw [exec_litff, colourArm_of_not_busy (s := clearEsc s) escByte hguard, colourStore_eq]
    rfl

/-! ### Escaped components -/

/-- R103, R104: an escape that is seen and then cleared leaves a unit boundary as it was. -/
theorem clearEsc_escapeSeen {s : State} (he : s.esc = false) : clearEsc (escapeSeen s) = s := by
  rw [clearEsc, escapeSeen, ← he]

/-- R117: at a unit boundary the bytes of `esc_comp(c)` run the colour arm once, with `c`. -/
theorem receiveAll_escComp {s : State} (c : Byte) (ha : s.argn = 0) (he : s.esc = false) :
    receiveAll (escComp c) s = .next (colourArm c s) := by
  by_cases hc : c = escByte
  · have hdoubled : receive escByte (escapeSeen s) = exec .litff (escapeSeen s) :=
      receive_litff ha rfl
    rw [escComp, if_pos hc, receiveAll_cons, receive_escByte ha he, andThen_next, receiveAll_cons,
      hdoubled, exec_litff, clearEsc_escapeSeen he, andThen_next, receiveAll_nil, hc]
  · rw [escComp, if_neg hc, receiveAll_cons, receive_color ha he hc, exec_color, andThen_next,
      receiveAll_nil]

/-- Settles O15: whether `c` is doubled or not, its bytes run the colour arm once, which stores it. -/
theorem escapedComponentDecodes : Obligations.EscapedComponentDecodes := by
  intro c s he ha hguard
  rw [receiveAll_escComp c ha he, colourArm_of_not_busy c hguard, colourStore_eq]

end Sys2Proof.Machine
end

section
/-! The dispatcher's commands (42_commands.md): the receipt of a wire command into the slot (R102, R106), the
answer of a Get command and of a Set command with and without room in the queue (R136 to R144), and
PUTCOLOR (R133, R134). -/

namespace Sys2Proof.Machine

/-! ### Receipt of a wire command -/

/-- R106: a tag without arguments, other than SyncCoords, makes its command ready. -/
theorem acceptTag_of_no_arguments {t : Tag} (s : State) (hsync : t ≠ .sync) (hargs : tagArgs t = 0) :
    acceptTag t s = { s with tag := t, ready := true } := by
  simp [acceptTag, hsync, hargs]

/-- R106: a tag with arguments begins to await them. -/
theorem acceptTag_of_arguments {t : Tag} (s : State) (hargs : tagArgs t ≠ 0) :
    acceptTag t s = { s with tag := t, argn := tagArgs t } := by
  have hsync : t ≠ .sync := by
    rintro rfl
    exact hargs rfl
  simp [acceptTag, hsync, hargs]

/-- R106, R111: the tag of SyncCoords also resets the Cursor, and the component index if
SYNC_RESETS_CIDX. -/
theorem acceptTag_sync (s : State) :
    acceptTag .sync s = { s with
      tag := .sync, ready := true, cx := 0, cy := 0
      cidx := if s.cfg.syncResetsCidx then 0 else s.cidx } := rfl

/-- R103, R106: with nothing in flight, an escape and a recognized tag byte accept the tag. -/
theorem receiveAll_tag {s : State} {b : Byte} {t : Tag} (bs : List Byte) (ha : s.argn = 0)
    (he : s.esc = false) (hr : s.ready = false) (ht : tagOfByte b = some t) :
    receiveAll (escByte :: b :: bs) s = receiveAll bs (acceptTag t s) := by
  have htag : receive b (escapeSeen s) = .next (acceptTag t (clearEsc (escapeSeen s))) :=
    receive_tag ha rfl hr (ne_escByte_of_tagOfByte ht) ht
  rw [receiveAll_cons, receive_escByte ha he, andThen_next, receiveAll_cons, htag, andThen_next,
    clearEsc_escapeSeen he]

/-- R102, R106: the bytes of a command with one argument byte leave it in the slot. -/
theorem receiveAll_tag_argument {s : State} {b : Byte} {t : Tag} (a : Byte) (ha : s.argn = 0)
    (he : s.esc = false) (hr : s.ready = false) (ht : tagOfByte b = some t) (hargs : tagArgs t = 1) :
    receiveAll [escByte, b, a] s =
      .next { s with tag := t, args := s.args.set 0 a, ready := true } := by
  have hne : tagArgs t ≠ 0 := by rw [hargs]; decide
  rw [receiveAll_tag [a] ha he hr ht, acceptTag_of_arguments s hne, receiveAll_cons,
    receive_argument (n := 0) a hargs, andThen_next, receiveAll_nil, ha]
  rfl

/-- A wire command other than SyncCoords is received if only the slot changes, and the slot then
holds it. -/
theorem receivedInto_of_ne_sync {i : Instr} {s : State} {t : Tag} {args : Vector Byte 3} (hi : i ≠ .sync)
    (hrecv : receiveAll (encode i) s = .next { s with tag := t, args := args, ready := true })
    (hslot : slotInstr { s with tag := t, args := args, ready := true } = i) : ReceivedInto i s :=
  ⟨_, hrecv, hslot, rfl, by simp [hi]⟩

/-- R106: receipt of a command without arguments, other than SyncCoords. -/
theorem receivedInto_of_no_arguments {i : Instr} {s : State} {b : Byte} {t : Tag} (hi : i ≠ .sync)
    (hbytes : encode i = [escByte, b]) (ht : tagOfByte b = some t) (hsync : t ≠ .sync)
    (hargs : tagArgs t = 0) (hslot : slotInstr { s with tag := t, ready := true } = i)
    (ha : s.argn = 0) (he : s.esc = false) (hr : s.ready = false) : ReceivedInto i s := by
  refine receivedInto_of_ne_sync (t := t) (args := s.args) hi ?_ hslot
  rw [hbytes, receiveAll_tag [] ha he hr ht, acceptTag_of_no_arguments s hsync hargs, receiveAll_nil]

/-- R136: receipt of SyncCoords, whose tag byte already resets the Cursor (R111). -/
theorem receivedInto_sync {s : State} (ha : s.argn = 0) (he : s.esc = false) (hr : s.ready = false) :
    ReceivedInto .sync s := by
  have hrecv : receiveAll (encode .sync) s = .next (acceptTag .sync s) :=
    receiveAll_tag [] ha he hr rfl
  exact ⟨_, hrecv, rfl, rfl, by simp [acceptTag_sync]⟩

/-- R137: receipt of GetBrightness. -/
theorem receivedInto_getbr {s : State} (ha : s.argn = 0) (he : s.esc = false) (hr : s.ready = false) :
    ReceivedInto .getbr s :=
  receivedInto_of_no_arguments (t := .getbr) nofun rfl rfl nofun rfl rfl ha he hr

/-- R139: receipt of GetAccelState. -/
theorem receivedInto_getacs {s : State} (ha : s.argn = 0) (he : s.esc = false) (hr : s.ready = false) :
    ReceivedInto .getacs s :=
  receivedInto_of_no_arguments (t := .getacs) nofun rfl rfl nofun rfl rfl ha he hr

/-- R141: receipt of GetAccelValues. -/
theorem receivedInto_getacv {s : State} (ha : s.argn = 0) (he : s.esc = false) (hr : s.ready = false) :
    ReceivedInto .getacv s :=
  receivedInto_of_no_arguments (t := .getacv) nofun rfl rfl nofun rfl rfl ha he hr

/-- R138: receipt of SetBrightness. -/
theorem receivedInto_setbr {s : State} (a : Byte) (ha : s.argn = 0) (he : s.esc = false)
    (hr : s.ready = false) : ReceivedInto (.setbr a) s :=
  receivedInto_of_ne_sync nofun (receiveAll_tag_argument (t := .setbr) a ha he hr rfl rfl)
    (by simp [slotInstr])

/-- R140: receipt of SetAccelState. -/
theorem receivedInto_setacs {s : State} (a : Byte) (ha : s.argn = 0) (he : s.esc = false)
    (hr : s.ready = false) : ReceivedInto (.setacs a) s :=
  receivedInto_of_ne_sync nofun (receiveAll_tag_argument (t := .setacs) a ha he hr rfl rfl)
    (by simp [slotInstr])

/-- R142: receipt of SetNumberDisplay. -/
theorem receivedInto_setnum {s : State} (b0 b1 b2 : Byte) (ha : s.argn = 0) (he : s.esc = false)
    (hr : s.ready = false) : ReceivedInto (.setnum b0 b1 b2) s :=
  receivedInto_of_ne_sync nofun (receiveAll_setnum b0 b1 b2 ha he hr) rfl

/-! ### Answered or deferred -/

/-- R143: a response that fits is queued, and the command is consumed. -/
theorem answer_of_room (p : List Byte) {s : State} (h : p.length ≤ rqFree s) :
    answer p s = { s with rq := s.rq ++ p, ready := false } := by
  rw [answer_eq, if_neg h.not_gt]

/-- R143: a response that does not fit is deferred. -/
theorem answer_of_no_room (p : List Byte) {s : State} (h : rqFree s < p.length) : answer p s = s := by
  rw [answer_eq, if_pos h]

/-- R144: with one byte free a Set command applies its value, queues Ready and is consumed. -/
theorem applyAndAck_of_room {apply : State → State} {s : State} (hrq : (apply s).rq = s.rq)
    (hcfg : (apply s).cfg = s.cfg) (h : 1 ≤ rqFree s) :
    applyAndAck apply s = { apply s with rq := s.rq ++ [readyByte], ready := false } := by
  rw [applyAndAck_eq hrq hcfg, if_neg (Nat.one_le_iff_ne_zero.1 h)]

/-- R143: with no byte free a Set command is deferred, and its value is not applied. -/
theorem applyAndAck_of_no_room {s : State} (apply : State → State) (h : rqFree s = 0) :
    applyAndAck apply s = s := by
  simp [applyAndAck, h]

/-! ### The dispatch of each command -/

/-- R136: SyncCoords resets the Cursor and is consumed. -/
theorem exec_sync (s : State) : exec .sync s = .next (consume (cursorHome s)) := rfl

/-- R137: GetBrightness answers with RBR. -/
theorem exec_getbr (s : State) : exec .getbr s = .next (answer (encode (.rbr s.brightness)) s) := rfl

/-- R139: GetAccelState answers with RACS. -/
theorem exec_getacs (s : State) : exec .getacs s = .next (answer (encode (.racs s.accelEnabled)) s) := rfl

/-- R141: GetAccelValues answers with RACV. -/
theorem exec_getacv (s : State) :
    exec .getacv s =
      .next (answer (encode (.racv (accelValues s).1 (accelValues s).2.1 (accelValues s).2.2)) s) := rfl

/-- R138: SetBrightness applies the clamped brightness. -/
theorem exec_setbr (a : Byte) (s : State) :
    exec (.setbr a) s =
      .next (applyAndAck (fun t => { t with brightness := brightnessOf t.cfg a }) s) := rfl

/-- R140: SetAccelState applies `accel_bool`. -/
theorem exec_setacs (a : Byte) (s : State) :
    exec (.setacs a) s =
      .next (applyAndAck (fun t => { t with accelEnabled := accelBool t.cfg a }) s) := rfl

/-- R142: SetNumberDisplay applies the 17-bit value. -/
theorem exec_setnum (b0 b1 b2 : Byte) (s : State) :
    exec (.setnum b0 b1 b2) s =
      .next (applyAndAck (fun t => { t with numberDisplay := numberOf b0 b1 b2 }) s) := rfl

/-- R133: PUTCOLOR. -/
theorem exec_putcolor (r g b : Byte) (s : State) :
    exec (.putcolor r g b) s = execPutcolor r g b s := rfl

/-- Settles O22: the receipt of the tag byte, and the dispatch, which is the Cursor reset and
`consume()`. -/
theorem syncCoordsExecuted : Obligations.SyncCoordsExecuted :=
  ⟨rfl, fun _ => receivedInto_sync, exec_sync⟩

/-- Settles O23: the response has three bytes, so it is queued or deferred as three bytes are free or not. -/
theorem getBrightnessAnsweredOrDeferred : Obligations.GetBrightnessAnsweredOrDeferred := by
  refine ⟨rfl, fun _ => receivedInto_getbr, fun s => ⟨fun hroom => ?_, fun hfull => ?_⟩⟩
  · rw [exec_getbr, answer_of_room (encode (.rbr s.brightness)) hroom]
    rfl
  · rw [exec_getbr, answer_of_no_room (encode (.rbr s.brightness)) hfull]

/-- Settles O24: a Set command whose value is the clamped argument. -/
theorem setBrightnessClampsAndAcknowledges : Obligations.SetBrightnessClampsAndAcknowledges := by
  refine ⟨fun _ => rfl, fun a _ => receivedInto_setbr a, fun a s => ⟨fun hroom => ?_, fun hfull => ?_⟩⟩
  · rw [exec_setbr, applyAndAck_of_room rfl rfl hroom]
    rfl
  · rw [exec_setbr, applyAndAck_of_no_room _ hfull]

/-- Settles O25: the response has two bytes, the first of them the header of R76. -/
theorem getAccelStateAnsweredOrDeferred : Obligations.GetAccelStateAnsweredOrDeferred := by
  refine ⟨rfl, fun _ => receivedInto_getacs, fun s => ⟨fun hroom => ?_, fun hfull => ?_⟩⟩
  · rw [exec_getacs, answer_of_room (encode (.racs s.accelEnabled)) hroom, encode, accelHeader_eq]
    rfl
  · rw [exec_getacs, answer_of_no_room (encode (.racs s.accelEnabled)) hfull]

/-- R140: where no value is mapped otherwise, `accel_bool(a)` is `a != 0`. -/
theorem accelBool_of_accelZeros_nil {c : Config} (h : c.accelZeros = []) (a : Byte) :
    accelBool c a = decide (a ≠ 0#8) := by
  simp [accelBool, h]

/-- R140: 0 disables. -/
theorem accelBool_zero (c : Config) : accelBool c 0#8 = false := by
  simp [accelBool]

/-- R140: 1 enables, for every legal choice of the parameters. -/
theorem accelBool_one {c : Config} (h : c.legal = true) : accelBool c 1#8 = true := by
  obtain ⟨-, -, -, -, -, -, -, hone⟩ := c.legal_iff.1 h
  simp [accelBool, hone]

/-- Settles O26: a Set command whose value is `accel_bool(a)`, and the values of that parameter which
R140 fixes. -/
theorem setAccelStateAppliesAndAcknowledges : Obligations.SetAccelStateAppliesAndAcknowledges := by
  refine ⟨fun _ => rfl, fun a _ => receivedInto_setacs a, fun a s => ⟨fun hroom => ?_, fun hfull => ?_⟩,
    fun _ a h => accelBool_of_accelZeros_nil h a, fun c h => ⟨accelBool_zero c, accelBool_one h⟩⟩
  · rw [exec_setacs, applyAndAck_of_room rfl rfl hroom]
    rfl
  · rw [exec_setacs, applyAndAck_of_no_room _ hfull]

/-- R141: while enabled, the values reported are those of the environment. -/
theorem accelValues_of_enabled {s : State} (h : s.accelEnabled = true) :
    accelValues s = (s.ax, s.ay, s.az) := by
  rw [accelValues, if_pos h]

/-- R141: while disabled, the values reported are zeros. -/
theorem accelValues_of_disabled {s : State} (h : s.accelEnabled = false) :
    accelValues s = (0#16, 0#16, 0#16) := by
  rw [accelValues, h]
  rfl

/-- Settles O27: the response has eight bytes, with the values of `accelValues`. -/
theorem getAccelValuesAnsweredOrDeferred : Obligations.GetAccelValuesAnsweredOrDeferred := by
  refine ⟨rfl, fun _ => receivedInto_getacv,
    fun s => ⟨fun hroom hon => ?_, fun hroom hoff => ?_, fun hfull => ?_⟩⟩
  · rw [exec_getacv, accelValues_of_enabled hon, answer_of_room (encode (.racv s.ax s.ay s.az)) hroom]
    rfl
  · rw [exec_getacv, accelValues_of_disabled hoff, answer_of_room (encode (.racv 0#16 0#16 0#16)) hroom]
    rfl
  · rw [exec_getacv, answer_of_no_room (encode (.racv _ _ _)) hfull]

/-- Settles O28: a Set command whose value is the 17-bit number of its three bytes. -/
theorem setNumberDisplayAppliesAndAcknowledges : Obligations.SetNumberDisplayAppliesAndAcknowledges := by
  refine ⟨fun _ _ _ => rfl, fun b0 b1 b2 _ => receivedInto_setnum b0 b1 b2,
    fun b0 b1 b2 s => ⟨fun hroom => exec_setnum_of_room b0 b1 b2 hroom, fun hfull => ?_⟩⟩
  rw [exec_setnum, applyAndAck_of_no_room _ hfull]

/-! ### PUTCOLOR -/

/-- R133, R41: the three scaled components go to consecutive addresses from that of the Cursor's pixel on. -/
theorem pixelWritten_eq (r g b : Byte) (s : State) :
    pixelWritten r g b s =
      ((s.fb.write ((s.cy * s.cfg.frameW + s.cx) * 3) (Config.scale s.brightness r)).write
        ((s.cy * s.cfg.frameW + s.cx) * 3 + 1) (Config.scale s.brightness g)).write
        ((s.cy * s.cfg.frameW + s.cx) * 3 + 2) (Config.scale s.brightness b) := rfl

/-- Settles O30: with the Cursor in the frame, exactly one of the three ways in which its advance can go
applies. -/
theorem putcolorWritesAndAdvances : Obligations.PutcolorWritesAndAdvances := by
  intro r g b s hcx hcy base fb
  have hfb : pixelWritten r g b s = fb := pixelWritten_eq r g b s
  rw [exec_putcolor, ← hfb]
  rcases execPutcolor_cases r g b s with ⟨hout, -⟩ | ⟨hx, -, e⟩ | ⟨hx, hy, e⟩ | ⟨hx, hy, e⟩
  · exact absurd ⟨hcx, hcy⟩ hout
  · exact ⟨fun _ => e, fun hx' _ => absurd hx' hx.ne, fun hx' _ => absurd hx' hx.ne⟩
  · exact ⟨fun hx' => absurd hx hx'.ne, fun _ _ => e, fun _ hy' => absurd hy' hy.ne⟩
  · exact ⟨fun hx' => absurd hx hx'.ne, fun _ hy' => absurd hy hy'.ne, fun _ _ => e⟩

end Sys2Proof.Machine
end

section
/-! The Response Queue (43_response_queue.md). -/

namespace Sys2Proof.Machine

/-- What `rq_push_packet` can do. -/
theorem rqPushPacket_cases (p : List Byte) (s : State) :
    (rqFree s < p.length ∧ rqPushPacket p s = none) ∨
    (p.length ≤ rqFree s ∧ rqPushPacket p s = some { s with rq := s.rq ++ p }) := by
  unfold rqPushPacket
  split
  · exact .inl ⟨‹_›, rfl⟩
  · exact .inr ⟨Nat.le_of_not_lt ‹_›, rfl⟩

/-- Settles O37: in each clause the hypothesis selects one of the two cases of the push, of a byte
(R162) or of a packet (R163). -/
theorem queuePushesWholeOrRejects : Obligations.QueuePushesWholeOrRejects := by
  intro b p s
  have hpush := rqPush_cases b s
  have hpacket := rqPushPacket_cases p s
  refine ⟨fun hfull => ?_, fun hroom => ?_, fun hlong => ?_, fun hfits => ?_⟩
  · exact (hpush.resolve_right fun ⟨hroom, _⟩ => hroom.ne hfull).2
  · exact (hpush.resolve_left fun ⟨hfull, _⟩ => hfull.not_gt hroom).2
  · exact (hpacket.resolve_right fun ⟨hfits, _⟩ => hfits.not_gt hlong).2
  · exact (hpacket.resolve_left fun ⟨hlong, _⟩ => hlong.not_ge hfits).2

end Sys2Proof.Machine
end

section
/-! Buttons and session (44_buttons_and_session.md): the poll of one button (R182), the idle dispatcher step
(R181), and the block after the session has ended (R186). -/

namespace Sys2Proof.Machine

/-! ### After the session has ended -/

/-- The host and the environment only add bytes to the stream the receiver takes from. -/
theorem outside_h2d_append {m : Move} (hm : m ≠ .rx ∧ m ≠ .disp ∧ m ≠ .txd) {s t : State}
    (h : runMove m s = .next t) : ∃ p, t.h2d = s.h2d ++ p := by
  obtain ⟨hrx, hdisp, htxd⟩ := hm
  have hnone : ∃ p, s.h2d = s.h2d ++ p := ⟨[], (List.append_nil _).symm⟩
  cases m with
  | rx => exact absurd rfl hrx
  | disp => exact absurd rfl hdisp
  | txd => exact absurd rfl htxd
  | hostByte b =>
    injection h with h; subst h
    unfold hostByteTurn
    split
    · exact ⟨[b], rfl⟩
    · exact hnone
  | hostWrite =>
    injection h with h; subst h
    unfold hostWriteTurn
    split
    · exact hnone
    · exact ⟨_, rfl⟩
    · exact ⟨_, rfl⟩
    · exact hnone
    · exact hnone
    · exact hnone
  | hostClose =>
    injection h with h; subst h
    unfold hostCloseTurn
    split
    · exact ⟨unwritten s, rfl⟩
    · exact hnone
  | hostSend f =>
    simp only [runMove, hostSendTurn] at h
    split at h
    · injection h with h; subst h; exact hnone
    · split at h
      · injection h with h; subst h; exact hnone
      · cases h
  | hostRead =>
    injection h with h; subst h
    unfold hostReadTurn
    split
    · split <;> exact hnone
    · exact hnone
  | hostFail =>
    injection h with h; subst h
    unfold hostFailTurn
    split <;> exact hnone
  | envButtons | envAccel | envTxReady => injection h with h; subst h; exact hnone

/-- R186: after the session has ended no byte is received. -/
theorem rxTurn_of_ended {s : State} (hr : s.running = false) : rxTurn s = .next s := by
  simp [rxTurn, takeByte, hr]

/-- R186: after the session has ended the dispatcher does nothing. -/
theorem dispTurn_of_ended {s : State} (hr : s.running = false) : dispTurn s = .next s := by
  simp [dispTurn, hr]

/-- R186, R173: what one move can do after the session has ended: nothing of the block is written but the
queue, whose head may go out. -/
theorem runMove_of_ended {m : Move} {s t : State} (hr : s.running = false) (h : runMove m s = .next t) :
    t = { s with
      rq := t.rq, d2h := t.d2h, h2d := t.h2d, sender := t.sender, channelOpen := t.channelOpen
      btnLive := t.btnLive, ax := t.ax, ay := t.ay, az := t.az, txReady := t.txReady } ∧
    (t.rq = s.rq ∨ ∃ b, s.rq = b :: t.rq ∧ t.d2h = s.d2h ++ [b]) ∧
    ∃ p, t.h2d = s.h2d ++ p := by
  by_cases hrx : m = .rx
  · subst hrx
    rw [runMove, rxTurn_of_ended hr] at h
    injection h with h; subst h
    exact ⟨rfl, .inl rfl, [], by simp⟩
  by_cases hdisp : m = .disp
  · subst hdisp
    rw [runMove, dispTurn_of_ended hr] at h
    injection h with h; subst h
    exact ⟨rfl, .inl rfl, [], by simp⟩
  by_cases htxd : m = .txd
  · subst htxd
    injection h with h; subst h
    rcases txdTurn_cases s with ⟨-, e⟩ | ⟨-, b, rest, hq, e⟩ <;> rw [e]
    · exact ⟨rfl, .inl rfl, [], by simp⟩
    · exact ⟨rfl, .inr ⟨b, hq, rfl⟩, [], by simp⟩
  · have hframe := outside_frame ⟨hrx, hdisp, htxd⟩ h
    exact ⟨by rw [hframe], .inl (by rw [hframe]), outside_h2d_append ⟨hrx, hdisp, htxd⟩ h⟩

/-- Settles O46: a step is a move from the state with its move drawn, and the draw writes only `moves` and
`tick`. -/
theorem blockFrozenAfterSessionEnd : Obligations.BlockFrozenAfterSessionEnd := by
  intro s t hr h
  rw [step_eq, drawMove_frame] at h
  obtain ⟨hframe, hqueue, hstream⟩ :=
    runMove_of_ended (s := { s with moves := (drawMove s).2.moves, tick := (drawMove s).2.tick }) hr h
  refine ⟨?_, hqueue, hstream⟩
  rw [hframe]

/-! ### The poll of one button -/

/-- R78: a button-event byte as a sum. -/
theorem buttonByte_eq (i : Fin 6) (p : Bool) :
    buttonByte i p = BitVec.ofNat 8 (0xF0 + 2 * i.val + p.toNat) := by
  rw [← buttonByte_toNat, BitVec.ofNat_toNat, BitVec.setWidth_eq]

/-- BTN is the poll of its button. -/
theorem exec_btn (i : Fin 6) (p : Bool) (s : State) : exec (.btn i p) s = .next (pollButton i p s) := rfl

/-- R182: a button in the state last reported. -/
theorem pollButton_of_unchanged {i : Fin 6} {p : Bool} {s : State} (h : p = s.btnReported[i]) :
    pollButton i p s = s := if_pos h

/-- R182: a changed button whose event fits. -/
theorem pollButton_of_room {i : Fin 6} {p : Bool} {s : State} (h : p ≠ s.btnReported[i])
    (hroom : s.rq.length < s.cfg.rqCapacity) :
    pollButton i p s =
      { s with rq := s.rq ++ [buttonByte i p], btnReported := s.btnReported.set i.val p i.isLt } := by
  have hpush := ((rqPush_cases (buttonByte i p) s).resolve_left fun ⟨hfull, _⟩ => hfull.not_gt hroom).2
  rw [pollButton, if_neg h, hpush]

/-- R182: no event fits a full queue, and a changed button is retried at its next poll. -/
theorem pollButton_of_full {s : State} (i : Fin 6) (p : Bool) (hfull : s.cfg.rqCapacity ≤ s.rq.length) :
    pollButton i p s = s :=
  (pollButton_cases i p s).resolve_right fun ⟨_, hroom, _⟩ => hfull.not_gt hroom

/-- Settles O35: R182's three cases, with the event byte of R78. -/
theorem buttonEdgeReportedBestEffort : Obligations.ButtonEdgeReportedBestEffort := by
  intro i p s
  refine ⟨fun h => ?_, fun h hroom => ?_, fun _ hfull => ?_⟩
  · rw [exec_btn, pollButton_of_unchanged h]
  · rw [exec_btn, pollButton_of_room h hroom, buttonByte_eq]
  · rw [exec_btn, pollButton_of_full i p hfull]

/-! ### The idle dispatcher step -/

/-- A poll leaves the counter and the index of the polling alone. -/
theorem pollButton_btnCtr_btnIdx (i : Fin 6) (p : Bool) (s : State) :
    (pollButton i p s).btnCtr = s.btnCtr ∧ (pollButton i p s).btnIdx = s.btnIdx := by
  rcases pollButton_cases i p s with e | ⟨-, -, e⟩ <;> rw [e] <;> exact ⟨rfl, rfl⟩

/-- R181: between two polls an idle tick only counts. -/
theorem idleTurn_of_not_due {s : State} (h : s.btnCtr + 1 ≠ s.cfg.btnPollInterval) :
    idleTurn s = .next { s with btnCtr := s.btnCtr + 1 } := if_neg h

/-- R181: at the interval the counter restarts, the button whose turn it is is polled, and the turn passes on. -/
theorem idleTurn_of_due {s : State} (h : s.btnCtr + 1 = s.cfg.btnPollInterval) :
    idleTurn s = .next
      { pollButton s.btnIdx s.btnLive[s.btnIdx] { s with btnCtr := 0 } with btnIdx := nextButton s.btnIdx } := by
  have hidx := (pollButton_btnCtr_btnIdx s.btnIdx s.btnLive[s.btnIdx] { s with btnCtr := 0 }).2
  rw [idleTurn, if_pos h, exec_btn, mapNext_next, hidx]

/-- R130: with no Ready owed and no command in flight, the dispatcher step is an idle tick and the exit check. -/
theorem dispTurn_of_idle {s : State} (hr : s.running = true) (ho : s.readyOwed = false) (hc : s.ready = false) :
    dispTurn s = mapNext exitCheck (idleTurn s) := by
  simp [dispTurn, hr, ho, hc]

/-- Settles O43: an idle tick before the interval and one at it, under the exit check. -/
theorem idleStepPollsRoundRobin : Obligations.IdleStepPollsRoundRobin := by
  intro s hr ho hc
  rw [dispTurn_of_idle hr ho hc]
  refine ⟨fun h => ?_, fun h => ⟨_, exec_btn .., (pollButton_btnCtr_btnIdx ..).1, ?_⟩⟩
  · rw [idleTurn_of_not_due h, mapNext_next]
  · rw [idleTurn_of_due h, mapNext_next, nextButton]

end Sys2Proof.Machine
end

section

/-! # The read loop of the Frame Sender (45_frame_sender.md R197) -/

namespace Sys2Proof.Machine

/-- R197: while `send` reads on an open channel, a read takes the oldest byte of the wire, and the loop goes on
unless that byte is the Ready. -/
theorem hostReadTurn_of_reading {b : Byte} {rest : List Byte} {s : State} (ho : s.channelOpen = true)
    (hs : s.sender = .reading) (hd : s.d2h = b :: rest) :
    hostReadTurn s =
      { s with d2h := rest, sender := if b = readyByte then .finished .ok else s.sender } := by
  have henabled : (s.channelOpen && !isWriting s) = true := by simp [ho, isWriting, hs]
  simp only [hostReadTurn, if_pos henabled, hd, hs, true_and]

/-- Settles O48: one read of the loop, by whether the byte read is the Ready. -/
theorem readLoopEndsAtReady : Obligations.ReadLoopEndsAtReady := by
  intro b rest s ho hs hd
  have hread := hostReadTurn_of_reading ho hs hd
  refine ⟨fun hready => ?_, fun hother => ?_⟩
  · rw [hread, if_pos (show b = readyByte from hready)]
  · rw [hread, if_neg (show b ≠ readyByte from hother)]

end Sys2Proof.Machine
end

section
/-! The two decoders of 30_encoding.md: each reads back the encoding of a unit (R62, R66 to R68, R74 to R78),
and what the host-to-device decoder reads encodes to the bytes it took. -/

namespace Sys2Proof

/-! ### Decoding a host-to-device encoding -/

/-- R65: a reserved tag is neither the escape nor one of the seven recognized tags. -/
theorem decodeEscaped_rsvd {t : Byte} (h : (Instr.rsvd t).wellFormed = true) (rest : List Byte) :
    decodeEscaped (t :: rest) = .ok (.rsvd t, rest) := by
  have hrange : 7 ≤ t.toNat ∧ t.toNat ≤ 0xFE := of_decide_eq_true h
  have hne (k : Byte) (hk : k.toNat < 7 ∨ 0xFE < k.toNat) : t ≠ k := by
    rintro rfl
    omega
  simp [decodeEscaped, hne]

/-- Settles O1: a unit other than COLOR begins with the escape, and the byte after it selects its row. -/
theorem hostUnitsDecodeToThemselves : Obligations.HostUnitsDecodeToThemselves := by
  intro i rest hdir hwf
  cases i with
  | color b =>
    have hb : b ≠ escByte := of_decide_eq_true hwf
    exact if_neg hb
  | rsvd t => exact decodeEscaped_rsvd hwf rest
  | litff | sync | getbr | setbr | getacs | setacs | getacv | setnum => rfl
  | putcolor | ready | rbr | racs | racv | btn => cases hdir

/-! ### Decoding a device-to-host encoding -/

/-- R45: a 16-bit value is put together from its bytes. -/
theorem halfOf_lowByte_highByte (v : U16) : halfOf (lowByte v) (highByte v) = v := by
  apply BitVec.eq_of_toNat_eq
  have hv : v.toNat < 65536 := v.isLt
  simp only [halfOf, lowByte, highByte, BitVec.toNat_append, BitVec.extractLsb'_toNat]
  rw [← Nat.shiftLeft_add_eq_or_of_lt (by omega), Nat.shiftLeft_eq, Nat.shiftRight_eq_div_pow]
  omega

/-- R76: the header of a GetAccelState response decodes to its flag. -/
theorem decodeDevice_accelHeader (e : Bool) (rest : List Byte) :
    decodeDevice (accelHeader e :: readyByte :: rest) = .ok (.racs e, rest) := by
  cases e <;> rfl

/-- R78: no button-event byte is the first byte of another unit. -/
theorem buttonByte_ne (i : Fin 6) (p : Bool) {h : Byte} (hh : h.toNat < 0xF0) : buttonByte i p ≠ h := by
  have hlow : 0xF0 ≤ (buttonByte i p).toNat := (buttonByte_in_range i p).1
  rintro rfl
  omega

/-- R78: a button-event byte decodes to its button and state. -/
theorem decodeDevice_buttonByte (i : Fin 6) (p : Bool) (rest : List Byte) :
    decodeDevice (buttonByte i p :: rest) = .ok (.btn i p, rest) := by
  have hne {h : Byte} (hh : h.toNat < 0xF0) : buttonByte i p ≠ h := buttonByte_ne i p hh
  have hbutton : ((buttonByte i p).toNat - 0xF0) / 2 = i.val := by
    have hp : p.toNat ≤ 1 := p.toNat_le
    rw [buttonByte_toNat]
    omega
  have hstate : decide ((buttonByte i p).toNat % 2 = 1) = p := by
    rw [buttonByte_toNat]
    cases p <;> simp [Nat.add_mod]
  simp [decodeDevice, hne, buttonByte_in_range i p, hbutton, hstate]

/-- Settles O2: the first byte selects the row; the computed bytes are those of R76, R77 and R78. -/
theorem deviceUnitsDecodeToThemselves : Obligations.DeviceUnitsDecodeToThemselves := by
  intro i rest hdir
  cases i with
  | ready | rbr => rfl
  | racs e => exact decodeDevice_accelHeader e rest
  | racv x y z => simp [encode, decodeDevice, halfOf_lowByte_highByte]
  | btn n p => exact decodeDevice_buttonByte n p rest
  | color | litff | sync | getbr | setbr | getacs | setacs | getacv | setnum | rsvd | putcolor => cases hdir

/-! ### Encoding what was decoded -/

/-- What the host-to-device decoder says of the bytes it reads: a host unit and the bytes after it, of the
length R68 finds. -/
def DecodesSoundly (bs : List Byte) (i : Instr) (rest : List Byte) : Prop :=
  i.wellFormed = true ∧ i.direction = .hostToDevice ∧ encode i ++ rest = bs ∧
    unitLength bs = some (encode i).length

/-- R64: a byte that is none of the seven recognized tags is from 0x07 on. -/
theorem seven_le_of_ne_tag {t : Byte} (h0 : t ≠ 0x00#8) (h1 : t ≠ 0x01#8) (h2 : t ≠ 0x02#8) (h3 : t ≠ 0x03#8)
    (h4 : t ≠ 0x04#8) (h5 : t ≠ 0x05#8) (h6 : t ≠ 0x06#8) : 7 ≤ t.toNat := by
  bv_omega

/-- R65, R68: an escape and a reserved tag are one unit of two bytes. -/
theorem decodesSoundly_rsvd {t : Byte} (ht : t ≠ escByte) (h7 : 7 ≤ t.toNat) (rest : List Byte) :
    DecodesSoundly (escByte :: t :: rest) (.rsvd t) rest := by
  have hFE : t.toNat ≤ 0xFE := by
    have : t ≠ 0xFF#8 := ht
    bv_omega
  refine ⟨decide_eq_true ⟨h7, hFE⟩, rfl, rfl, ?_⟩
  have hrec : recognized t = false := decide_eq_false (by omega)
  simp [unitLength, ht, hrec, encode]

/-- R62, R68: a unit that begins with an escape, read by its second byte. -/
theorem decodesSoundly_of_decodeEscaped {bs : List Byte} {i : Instr} {rest : List Byte}
    (h : decodeEscaped bs = .ok (i, rest)) : DecodesSoundly (escByte :: bs) i rest := by
  match bs with
  | [] => cases h
  | t :: bs =>
    simp only [decodeEscaped] at h
    split_ifs at h with hFF h0 h1 h2 h3 h4 h5 h6
    · subst hFF; cases h; exact ⟨rfl, rfl, rfl, rfl⟩
    · subst h0; cases h; exact ⟨rfl, rfl, rfl, rfl⟩
    · subst h1; cases h; exact ⟨rfl, rfl, rfl, rfl⟩
    · subst h2
      match bs with
      | a :: r => cases h; exact ⟨rfl, rfl, rfl, rfl⟩
    · subst h3; cases h; exact ⟨rfl, rfl, rfl, rfl⟩
    · subst h4
      match bs with
      | a :: r => cases h; exact ⟨rfl, rfl, rfl, rfl⟩
    · subst h5; cases h; exact ⟨rfl, rfl, rfl, rfl⟩
    · subst h6
      match bs with
      | b0 :: b1 :: b2 :: r => cases h; exact ⟨rfl, rfl, rfl, rfl⟩
    · cases h
      exact decodesSoundly_rsvd hFF (seven_le_of_ne_tag h0 h1 h2 h3 h4 h5 h6) rest

/-- R62: a plain byte is COLOR, an escape begins another unit. -/
theorem decodesSoundly_of_decode {bs : List Byte} {i : Instr} {rest : List Byte}
    (h : decode bs = .ok (i, rest)) : DecodesSoundly bs i rest := by
  match bs with
  | [] => cases h
  | b :: bs =>
    by_cases hb : b = escByte
    · subst hb
      exact decodesSoundly_of_decodeEscaped h
    · simp only [decode, if_neg hb] at h
      cases h
      exact ⟨decide_eq_true hb, rfl, rfl, by simp [unitLength, hb, encode]⟩

/-- Settles O3: by whether the first byte is the escape, and then by the byte after it. -/
theorem decodedHostBytesReencode : Obligations.DecodedHostBytesReencode :=
  fun _ _ _ => decodesSoundly_of_decode

/-- Settles O4: the words are the encodings of the units they are to decode to. -/
theorem specWordsDecode : Obligations.SpecWordsDecode :=
  ⟨hostUnitsDecodeToThemselves (.color 0x12#8) [] rfl rfl, hostUnitsDecodeToThemselves .litff [] rfl rfl,
    hostUnitsDecodeToThemselves (.setbr 0x64#8) [] rfl rfl,
    hostUnitsDecodeToThemselves (.setnum 0x39#8 0x30#8 0x01#8) [] rfl rfl,
    hostUnitsDecodeToThemselves (.rsvd 0x07#8) [] rfl (by decide),
    deviceUnitsDecodeToThemselves (.btn 2 true) [] rfl,
    deviceUnitsDecodeToThemselves (.racv 0x0123#16 0xFFFE#16 0x8000#16) [] rfl⟩

end Sys2Proof
end

section
/-! What a unit, a dispatcher step and a move write (10_state.md R29): the frame of every unit, of the command
in the slot, of a whole dispatcher step, and of every other agent's move. -/

namespace Sys2Proof.Machine

/-! ### The frame of a unit -/

theorem colourArm_frame (v : Byte) (s : State) :
    colourArm v s = { s with
      col := (colourArm v s).col, cidx := (colourArm v s).cidx
      tag := (colourArm v s).tag, ready := (colourArm v s).ready } := by
  rcases colourArm_cases v s with ⟨-, -, e⟩ | ⟨-, e⟩ <;> rw [e]
  rfl

theorem answer_frame (p : List Byte) (s : State) :
    answer p s = { s with rq := (answer p s).rq, ready := (answer p s).ready } := by
  rw [answer_eq]
  split <;> rfl

/-- What a Set command can do, where `apply` leaves the queue and the parameters alone. -/
theorem applyAndAck_cases {apply : State → State} {s : State} (hrq : (apply s).rq = s.rq)
    (hcfg : (apply s).cfg = s.cfg) :
    applyAndAck apply s = s ∨
    (s.rq.length < s.cfg.rqCapacity ∧
      applyAndAck apply s = { apply s with rq := s.rq ++ [readyByte], ready := false }) := by
  rcases Nat.eq_zero_or_pos (rqFree s) with h | h
  · exact .inl (applyAndAck_of_no_room apply h)
  · exact .inr ⟨Nat.lt_of_sub_pos h, applyAndAck_of_room hrq hcfg h⟩

theorem execReady_frame {s t : State} (h : execReady s = .next t) :
    t = { s with rq := t.rq, ready := t.ready, readyOwed := t.readyOwed } := by
  rcases execReady_cases s with ⟨-, e⟩ | ⟨-, e⟩ <;> rw [e] at h <;> cases h <;> rfl

theorem pollButton_frame (i : Fin 6) (p : Bool) (s : State) :
    pollButton i p s = { s with rq := (pollButton i p s).rq, btnReported := (pollButton i p s).btnReported } := by
  rcases pollButton_cases i p s with e | ⟨-, -, e⟩ <;> rw [e]

/-- R182: a poll reports no other button. -/
theorem pollButton_btnReported_ne {i j : Fin 6} (p : Bool) (s : State) (hj : j ≠ i) :
    (pollButton i p s).btnReported[j] = s.btnReported[j] := by
  rcases pollButton_cases i p s with e | ⟨-, -, e⟩ <;> rw [e]
  exact Vector.getElem_set_ne i.isLt j.isLt fun h => hj (Fin.ext h.symm)

/-- Settles O36: the frame of what each unit runs; none of them names the frame buffer. -/
theorem unitsWriteOnlyTheirOwn : Obligations.UnitsWriteOnlyTheirOwn := by
  intro i s t h
  have keeps {u : State} (hu : u.fb = s.fb) (a : Nat) : u.fb.read a = s.fb.read a := by rw [hu]
  cases i with
  | color b =>
    rw [exec_color] at h; cases h
    have hframe := colourArm_frame b s
    exact ⟨keeps (by rw [hframe]), by rw [hframe]⟩
  | litff =>
    rw [exec_litff] at h; cases h
    have hframe := colourArm_frame escByte (clearEsc s)
    exact ⟨keeps (by rw [hframe]; rfl), by rw [hframe]; rfl⟩
  | rsvd t => cases h; exact ⟨keeps rfl, rfl⟩
  | sync => cases h; exact ⟨keeps rfl, rfl⟩
  | getbr | getacs | getacv | rbr | racs | racv =>
    cases h
    have hframe := answer_frame
    exact ⟨keeps (by rw [hframe]), hframe ..⟩
  | setbr a =>
    rw [exec_setbr] at h; cases h
    rcases applyAndAck_cases (apply := fun t => { t with brightness := brightnessOf t.cfg a }) (s := s) rfl rfl
      with e | ⟨-, e⟩ <;> rw [e] <;> exact ⟨keeps rfl, rfl⟩
  | setacs a =>
    rw [exec_setacs] at h; cases h
    rcases applyAndAck_cases (apply := fun t => { t with accelEnabled := accelBool t.cfg a }) (s := s) rfl rfl
      with e | ⟨-, e⟩ <;> rw [e] <;> exact ⟨keeps rfl, rfl⟩
  | setnum b0 b1 b2 =>
    rw [exec_setnum] at h; cases h
    rcases applyAndAck_cases (apply := fun t => { t with numberDisplay := numberOf b0 b1 b2 }) (s := s) rfl rfl
      with e | ⟨-, e⟩ <;> rw [e] <;> exact ⟨keeps rfl, rfl⟩
  | ready =>
    have hframe := execReady_frame h
    exact ⟨keeps (by rw [hframe]), hframe⟩
  | btn n p =>
    rw [exec_btn] at h; cases h
    have hframe := pollButton_frame n p s
    exact ⟨keeps (by rw [hframe]), hframe, fun m hm => pollButton_btnReported_ne p s hm⟩
  | putcolor => trivial

/-! ### PUTCOLOR -/

/-- Settles O31: in the three cases that go on the Cursor is in the frame. -/
theorem putcolorOutsideTheFrameStops : Obligations.PutcolorOutsideTheFrameStops := by
  intro r g b s hout
  rw [exec_putcolor]
  rcases execPutcolor_cases r g b s with ⟨-, e⟩ | ⟨hx, hy, -⟩ | ⟨hx, hy, -⟩ | ⟨hx, hy, -⟩
  · exact e
  · omega
  · omega
  · omega

/-- R133: what PUTCOLOR leaves when it goes on: the pixel is written, and nothing else but the Cursor, the
handshake and the record of the latch. -/
theorem execPutcolor_frame {r g b : Byte} {s t : State} (h : execPutcolor r g b s = .next t) :
    t.fb = pixelWritten r g b s ∧
    t = { s with
      fb := t.fb, cx := t.cx, cy := t.cy, ready := t.ready, readyOwed := t.readyOwed
      frames := t.frames, shown := t.shown } := by
  rcases execPutcolor_cases r g b s with ⟨-, e⟩ | ⟨-, -, e⟩ | ⟨-, -, e⟩ | ⟨-, -, e⟩ <;> rw [e] at h <;>
    cases h <;> exact ⟨rfl, rfl⟩

/-- R41: a component of the Cursor's pixel as written. -/
theorem pixelWritten_read (r g b : Byte) (s : State) (c : Fin 3) :
    (pixelWritten r g b s).read (fbAddr s.cfg.frameW s.cx s.cy c.val) =
      some (Config.scale s.brightness (pixelComponent ⟨r, g, b⟩ c)) := by
  have hne {i j : Nat} (h : i ≠ j) : fbAddr s.cfg.frameW s.cx s.cy i ≠ fbAddr s.cfg.frameW s.cx s.cy j :=
    fun e => h (Nat.add_left_cancel e)
  unfold pixelWritten fbWrite
  match c with
  | 0 =>
    rw [Memory.read_write_other _ _ (hne (by decide)), Memory.read_write_other _ _ (hne (by decide))]
    exact Memory.read_write_self ..
  | 1 =>
    rw [Memory.read_write_other _ _ (hne (by decide))]
    exact Memory.read_write_self ..
  | 2 => exact Memory.read_write_self ..

/-- R41: no other byte of the frame buffer is written. -/
theorem pixelWritten_read_other (r g b : Byte) {s : State} {a : Nat}
    (ha : ∀ c, c < 3 → a ≠ fbAddr s.cfg.frameW s.cx s.cy c) :
    (pixelWritten r g b s).read a = s.fb.read a := by
  unfold pixelWritten fbWrite
  rw [Memory.read_write_other _ _ (ha 2 (by decide)), Memory.read_write_other _ _ (ha 1 (by decide)),
    Memory.read_write_other _ _ (ha 0 (by decide))]

/-- Settles O32: PUTCOLOR leaves the frame buffer with the pixel written. -/
theorem putcolorFrame : Obligations.PutcolorFrame := by
  intro r g b s t h
  obtain ⟨hfb, hframe⟩ := execPutcolor_frame h
  refine ⟨fun a ha => ?_, ?_, ?_, ?_, hframe⟩ <;> rw [hfb]
  · exact pixelWritten_read_other r g b ha
  · exact pixelWritten_read r g b s 0
  · exact pixelWritten_read r g b s 1
  · exact pixelWritten_read r g b s 2

/-! ### The command in the slot -/

theorem slotInstr_of_putcolor {s : State} (ht : s.tag = .putcolor) :
    slotInstr s = .putcolor s.col[0] s.col[1] s.col[2] := by
  rw [slotInstr, ht]

/-- No wire command is dispatched as a PUTCOLOR. -/
theorem tag_of_slotInstr_eq_putcolor {s : State} {r g b : Byte} (h : slotInstr s = .putcolor r g b) :
    s.tag = .putcolor := by
  cases htag : s.tag with
  | putcolor => rfl
  | sync | getbr | setbr | getacs | setacs | getacv | setnum => simp [slotInstr, htag] at h

/-- R132, R133, R136 to R142: what the command in the slot writes. -/
theorem exec_slot_frame {s t : State} (h : exec (slotInstr s) s = .next t) :
    t = { s with
      ready := t.ready, cx := t.cx, cy := t.cy, fb := t.fb, rq := t.rq, brightness := t.brightness
      accelEnabled := t.accelEnabled, numberDisplay := t.numberDisplay, readyOwed := t.readyOwed
      frames := t.frames, shown := t.shown } := by
  cases htag : s.tag with
  | putcolor =>
    rw [slotInstr_of_putcolor htag] at h
    rw [← htag, (execPutcolor_frame h).2]
  | sync | getbr | setbr | getacs | setacs | getacv | setnum =>
    simp only [slotInstr, htag] at h
    obtain ⟨-, hframe⟩ := unitsWriteOnlyTheirOwn _ _ _ h
    rw [← htag, hframe]

/-- R132, R165: the command in the slot is consumed or stays, and only adds to the queue. -/
theorem exec_slot_ready_rq {s t : State} (h : exec (slotInstr s) s = .next t) :
    (t.ready = s.ready ∨ t.ready = false) ∧ ∃ p, t.rq = s.rq ++ p := by
  by_cases htag : s.tag = .putcolor
  · rw [slotInstr_of_putcolor htag, exec_putcolor] at h
    rcases execPutcolor_cases s.col[0] s.col[1] s.col[2] s with ⟨-, e⟩ | ⟨-, -, e⟩ | ⟨-, -, e⟩ | ⟨-, -, e⟩ <;>
      rw [e] at h <;> cases h
    · exact ⟨.inr rfl, [], (List.append_nil _).symm⟩
    · exact ⟨.inr rfl, [], (List.append_nil _).symm⟩
    · exact ⟨.inl rfl, [], (List.append_nil _).symm⟩
  · obtain ⟨u, hu, hcase⟩ := exec_slot_wire htag
    rw [hu] at h; cases h
    rcases hcase with ⟨-, rfl⟩ | ⟨-, hready, hrq, -⟩
    · exact ⟨.inl rfl, [], (List.append_nil _).symm⟩
    · exact ⟨.inr hready, _, hrq⟩

/-! ### A dispatcher step -/

/-- R180, R181: an idle tick writes the state of the button polling and adds to the queue. -/
theorem idleTurn_frame {s t : State} (h : idleTurn s = .next t) :
    t = { s with rq := t.rq, btnReported := t.btnReported, btnIdx := t.btnIdx, btnCtr := t.btnCtr } ∧
    ∃ p, t.rq = s.rq ++ p := by
  rcases idleTurn_cases s with ⟨-, e⟩ | ⟨-, e⟩ | ⟨-, -, e⟩ <;> rw [e] at h <;> cases h
  · exact ⟨rfl, [], (List.append_nil _).symm⟩
  · exact ⟨rfl, [], (List.append_nil _).symm⟩
  · exact ⟨rfl, _, rfl⟩

/-- R165: READY is consumed or not, and only adds to the queue. -/
theorem execReady_ready_rq {s t : State} (h : execReady s = .next t) :
    (t.ready = s.ready ∨ t.ready = false) ∧ ∃ p, t.rq = s.rq ++ p := by
  rcases execReady_cases s with ⟨-, e⟩ | ⟨-, e⟩ <;> rw [e] at h <;> cases h
  · exact ⟨.inl rfl, [], (List.append_nil _).symm⟩
  · exact ⟨.inr rfl, _, rfl⟩

/-- R29: what a dispatcher step writes. -/
theorem dispTurn_frame {s t : State} (h : dispTurn s = .next t) :
    t = { s with
      ready := t.ready, cx := t.cx, cy := t.cy, fb := t.fb, rq := t.rq, brightness := t.brightness
      accelEnabled := t.accelEnabled, numberDisplay := t.numberDisplay, readyOwed := t.readyOwed
      btnReported := t.btnReported, btnIdx := t.btnIdx, btnCtr := t.btnCtr, exitCtr := t.exitCtr
      running := t.running, frames := t.frames, shown := t.shown, saved := t.saved } ∧
    (t.ready = s.ready ∨ t.ready = false) ∧ ∃ p, t.rq = s.rq ++ p := by
  rcases dispTurn_cases s with ⟨-, e⟩ | ⟨-, -, e⟩ | ⟨-, -, -, e⟩ | ⟨-, -, -, e⟩ <;> rw [e] at h
  · cases h
    exact ⟨rfl, .inl rfl, [], (List.append_nil _).symm⟩
  · exact ⟨by rw [execReady_frame h], execReady_ready_rq h⟩
  · obtain ⟨u, hu, rfl⟩ := mapNext_eq_next h
    obtain ⟨hready, p, hrq⟩ := exec_slot_ready_rq hu
    rw [exitCheck_frame u]
    exact ⟨by rw [exec_slot_frame hu], hready, p, hrq⟩
  · obtain ⟨u, hu, rfl⟩ := mapNext_eq_next h
    obtain ⟨hframe, p, hrq⟩ := idleTurn_frame hu
    rw [exitCheck_frame u]
    exact ⟨by rw [hframe], .inl (by rw [hframe]), p, hrq⟩

/-- Settles O56: the frame of a dispatcher step. -/
theorem dispatcherOnlyClearsReady : Obligations.DispatcherOnlyClearsReady := by
  intro s t h
  obtain ⟨hframe, hready, -⟩ := dispTurn_frame h
  refine ⟨?_, ?_, ?_, ?_, ?_, ?_, hready, ?_, ?_⟩ <;> rw [hframe]

/-- Settles O44: neither the Ready retry nor the command in the slot is an idle tick, and the exit check
polls no button. -/
theorem noButtonPolledWhileBusy : Obligations.NoButtonPolledWhileBusy := by
  intro s t hbusy h
  rcases dispTurn_cases s with ⟨-, e⟩ | ⟨-, -, e⟩ | ⟨-, -, -, e⟩ | ⟨-, howed, hready, -⟩
  · rw [e] at h; cases h
    exact ⟨rfl, rfl, rfl⟩
  · rw [e] at h
    rw [execReady_frame h]
    exact ⟨rfl, rfl, rfl⟩
  · rw [e] at h
    obtain ⟨u, hu, rfl⟩ := mapNext_eq_next h
    rw [exitCheck_frame u, exec_slot_frame hu]
    exact ⟨rfl, rfl, rfl⟩
  · simp [howed, hready] at hbusy

/-- Settles O45: the exit check by its counter and the two buttons, and R130's choice between the retry and
a step it ends. -/
theorem exitCheckEndsSessionOnBothButtons : Obligations.ExitCheckEndsSessionOnBothButtons := by
  intro s
  have hpressed : exitPressed s = true ↔ s.btnLive[4] = true ∧ s.btnLive[5] = true := Bool.and_eq_true_iff
  refine ⟨fun hctr => if_neg hctr, fun hctr hexit => ?_, fun hctr hexit => ?_, fun hr ho => ?_, fun hr ho => ?_⟩
  · rw [exitCheck, if_pos hctr, if_pos (hpressed.2 hexit)]
    rfl
  · rw [exitCheck, if_pos hctr, if_neg (mt hpressed.1 hexit)]
  · simp [dispTurn, hr, ho]
  · simp [dispTurn, hr, ho]

/-- R130: with no Ready owed and a command in the slot, the dispatcher step is its `exec` and the exit check. -/
theorem dispTurn_of_command {s : State} (hr : s.running = true) (ho : s.readyOwed = false) (hc : s.ready = true) :
    dispTurn s = mapNext exitCheck (exec (slotInstr s) s) := by
  simp [dispTurn, hr, ho, hc]

/-- R130: while Ready is owed a dispatcher step is the retry. -/
theorem dispTurn_of_owed {s : State} (hr : s.running = true) (ho : s.readyOwed = true) :
    dispTurn s = exec .ready s := by
  simp [dispTurn, hr, ho]

/-- A step whose move is fixed runs that move. -/
theorem step_of_moves_eq {s : State} {m : Move} {ms : List Move} (h : s.moves = m :: ms) :
    step s = runMove m { s with moves := ms } := by
  rw [step_eq, drawMove, h]

/-- Settles O51: the slot does not depend on the moves. -/
theorem stepRunsCommandInSlot : Obligations.StepRunsCommandInSlot := by
  intro s ms hm hr ho hc
  rw [step_of_moves_eq hm]
  exact dispTurn_of_command hr ho hc

/-! ### Any other move, and a step -/

/-- R29: no move but the dispatcher's writes the parameters, the frame buffer, the settings, the session or
the record of the display; it leaves the queue or takes its oldest byte. -/
theorem runMove_frame_of_ne_disp {m : Move} (hm : m ≠ .disp) {s t : State} (h : runMove m s = .next t) :
    t = { s with
      esc := t.esc, argn := t.argn, tag := t.tag, ready := t.ready, args := t.args, cidx := t.cidx
      col := t.col, cx := t.cx, cy := t.cy, rq := t.rq, btnLive := t.btnLive, ax := t.ax, ay := t.ay
      az := t.az, txReady := t.txReady, h2d := t.h2d, d2h := t.d2h, sender := t.sender
      channelOpen := t.channelOpen } ∧
    (t.rq = s.rq ∨ ∃ b, s.rq = b :: t.rq) := by
  by_cases hrx : m = .rx
  · subst hrx
    rw [runMove] at h
    rcases rxTurn_cases s with ⟨-, e⟩ | ⟨-, b, rest, -, e⟩ <;> rw [e] at h
    · cases h
      exact ⟨rfl, .inl rfl⟩
    · have hframe := (receive_frame h).1
      exact ⟨by rw [hframe], .inl (by rw [hframe])⟩
  by_cases htxd : m = .txd
  · subst htxd
    rw [runMove] at h; cases h
    rcases txdTurn_cases s with ⟨-, e⟩ | ⟨-, b, rest, hq, e⟩ <;> rw [e]
    · exact ⟨rfl, .inl rfl⟩
    · exact ⟨rfl, .inr ⟨b, hq⟩⟩
  · have hframe := outside_frame ⟨hrx, hm, htxd⟩ h
    exact ⟨by rw [hframe], .inl (by rw [hframe])⟩

/-- A step is a move from the state with its move drawn, which differs in `moves` and `tick` only. -/
theorem runMove_of_step {s t : State} (h : step s = .next t) :
    ∃ ms k, runMove (drawMove s).1 { s with moves := ms, tick := k } = .next t := by
  rw [step_eq, drawMove_frame] at h
  exact ⟨_, _, h⟩

/-- R30: no move changes the parameters. -/
theorem runMove_cfg {m : Move} {s t : State} (h : runMove m s = .next t) : t.cfg = s.cfg := by
  by_cases hm : m = .disp
  · subst hm
    rw [(dispTurn_frame h).1]
  · rw [(runMove_frame_of_ne_disp hm h).1]

/-- Settles O55: a step is a move. -/
theorem parametersFixedForTheRun : Obligations.ParametersFixedForTheRun := by
  intro s t h
  obtain ⟨ms, k, h⟩ := runMove_of_step h
  exact runMove_cfg (s := { s with moves := ms, tick := k }) h

/-! ### The frame buffer and the display -/

/-- R40, R133: what a dispatcher step can do to the frame buffer and the display: nothing, or it executes a
PUTCOLOR, which latches if and only if it completes the frame. -/
theorem dispTurn_display_cases {s t : State} (h : dispTurn s = .next t) :
    (t.fb = s.fb ∧ t.frames = s.frames ∧ t.shown = s.shown) ∨
    ((s.running = true ∧ s.readyOwed = false ∧ s.ready = true ∧ s.tag = .putcolor) ∧
      (t.frames = s.frames ∧ t.shown = s.shown ∨
        t.frames = s.frames + 1 ∧ t.shown = t.fb ∧ t.readyOwed = true ∧ t.cx = 0 ∧ t.cy = 0)) := by
  rcases dispTurn_cases s with ⟨-, e⟩ | ⟨-, -, e⟩ | ⟨hr, ho, hc, e⟩ | ⟨-, -, -, e⟩ <;> rw [e] at h
  · cases h
    exact .inl ⟨rfl, rfl, rfl⟩
  · rw [execReady_frame h]
    exact .inl ⟨rfl, rfl, rfl⟩
  · obtain ⟨u, hu, rfl⟩ := mapNext_eq_next h
    rw [exitCheck_frame u]
    by_cases htag : s.tag = .putcolor
    · refine .inr ⟨⟨hr, ho, hc, htag⟩, ?_⟩
      rw [slotInstr_of_putcolor htag, exec_putcolor] at hu
      rcases execPutcolor_cases s.col[0] s.col[1] s.col[2] s with ⟨-, e⟩ | ⟨-, -, e⟩ | ⟨-, -, e⟩ | ⟨-, -, e⟩ <;>
        rw [e] at hu <;> cases hu
      · exact .inl ⟨rfl, rfl⟩
      · exact .inl ⟨rfl, rfl⟩
      · exact .inr ⟨rfl, rfl, rfl, rfl, rfl⟩
    · obtain ⟨v, hv, hframe⟩ :=
        exec_next_frame (slotInstr s) s fun _ _ _ e => htag (tag_of_slotInstr_eq_putcolor e)
      rw [hv] at hu; cases hu
      rw [hframe]
      exact .inl ⟨rfl, rfl, rfl⟩
  · obtain ⟨u, hu, rfl⟩ := mapNext_eq_next h
    rw [exitCheck_frame u, (idleTurn_frame hu).1]
    exact .inl ⟨rfl, rfl, rfl⟩

/-- Settles O57: only the dispatcher's move can latch, by executing the PUTCOLOR that completes a frame. -/
theorem latchOnlyAtFrameCompletion : Obligations.LatchOnlyAtFrameCompletion := by
  intro s t h
  obtain ⟨ms, k, h⟩ := runMove_of_step h
  by_cases hm : (drawMove s).1 = .disp
  · rw [hm] at h
    rcases dispTurn_display_cases h with ⟨-, hsame⟩ | ⟨⟨-, ho, -⟩, hsame | ⟨hf, hs, hrest⟩⟩
    · exact .inl hsame
    · exact .inl hsame
    · exact .inr ⟨hf, hs, ho, hrest⟩
  · rw [(runMove_frame_of_ne_disp hm h).1]
    exact .inl ⟨rfl, rfl⟩

/-- Settles O58: only the dispatcher's move can write the frame buffer, and only where it executes a PUTCOLOR. -/
theorem frameBufferWrittenOnlyByPutcolor : Obligations.FrameBufferWrittenOnlyByPutcolor := by
  intro s t h hne
  obtain ⟨ms, k, h⟩ := runMove_of_step h
  by_cases hm : (drawMove s).1 = .disp
  · rw [hm] at h
    rcases dispTurn_display_cases h with ⟨hfb, -⟩ | ⟨hput, -⟩
    · exact absurd hfb hne
    · exact ⟨hm, hput⟩
  · rw [(runMove_frame_of_ne_disp hm h).1] at hne
    exact absurd rfl hne

end Sys2Proof.Machine
end

section
/-! The invariant of 10_state.md section 8: it holds after reset, and every agent's move keeps it; and from a
state that keeps it no step of the block stops (60_exceptions.md R205). -/

namespace Sys2Proof.Machine

/-! ### After reset -/

theorem inv_resetWith {c : Config} (h : c.legal = true) : Inv (State.resetWith c) := by
  obtain ⟨hw, hh, -, -, -, hbtn, hexit, -⟩ := c.legal_iff.1 h
  exact ⟨h, nofun, fun hargn => absurd rfl hargn, ⟨hw, hh⟩, Nat.zero_le _, nofun,
    resetWith_brightness_in_range h, ⟨hbtn, hexit⟩, reset_fb_wf c, nofun⟩

/-- Settles O53: the clauses about values hold by the parameters' constraints, the others are about flags that
are clear and lists that are empty. -/
theorem invariantHoldsAtReset : Obligations.InvariantHoldsAtReset :=
  ⟨fun _ => inv_resetWith, inv_resetWith (by decide)⟩

/-! ### Receipt -/

/-- I1 and I2: a ready command awaits no argument, and while arguments are awaited no escape is pending and no
command is ready. -/
def Handshake (s : State) : Prop :=
  (s.ready = true → s.argn = 0) ∧ (s.argn ≠ 0 → s.esc = false ∧ s.ready = false)

theorem handshake_of_argn_zero {s : State} (h : s.argn = 0) : Handshake s :=
  ⟨fun _ => h, fun hne => absurd h hne⟩

theorem argArm_handshake {s : State} (b : Byte) (h : Handshake s) (ha : s.argn ≠ 0) : Handshake (argArm b s) := by
  obtain ⟨hesc, hready⟩ := h.2 ha
  by_cases hlast : (⟨s.argn.val - 1, by omega⟩ : Fin 3) = 0
  · exact handshake_of_argn_zero (by simp [argArm, hlast])
  · have hkept : (argArm b s).ready = false := by simp [argArm, hlast, hready]
    exact ⟨fun hr => absurd (hkept.symm.trans hr) nofun, fun _ => ⟨hesc, hkept⟩⟩

theorem acceptTag_handshake {s : State} (t : Tag) (ha : s.argn = 0) (he : s.esc = false) (hr : s.ready = false) :
    Handshake (acceptTag t s) := by
  by_cases hargs : tagArgs t = 0
  · refine handshake_of_argn_zero ?_
    by_cases hsync : t = .sync
    · subst hsync
      exact ha
    · rw [acceptTag_of_no_arguments s hsync hargs]
      exact ha
  · rw [acceptTag_of_arguments s hargs]
    exact ⟨fun h => absurd (hr.symm.trans h) nofun, fun _ => ⟨he, hr⟩⟩

theorem receive_handshake {b : Byte} {s t : State} (hs : Handshake s) (h : receive b s = .next t) :
    Handshake t := by
  have colour (v : Byte) {u : State} (hu : u.argn = 0) : Handshake (colourArm v u) :=
    handshake_of_argn_zero (by rw [colourArm_frame]; exact hu)
  rcases receive_cases b s with ⟨ha, e⟩ | ⟨ha, -, -, e⟩ | ⟨ha, -, -, e⟩ | ⟨ha, -, -, e⟩ | ⟨ha, -, -, -, e⟩ |
    ⟨ha, -, -, hr, k, -, e⟩ | ⟨ha, -, -, -, -, e⟩ <;> rw [e] at h <;> cases h
  · exact argArm_handshake b hs ha
  · exact handshake_of_argn_zero ha
  · exact colour b ha
  · exact colour escByte (u := clearEsc s) ha
  · exact handshake_of_argn_zero ha
  · exact acceptTag_handshake (s := clearEsc s) k ha rfl hr
  · exact handshake_of_argn_zero ha

/-- R111: only the tag of SyncCoords makes the receiver write the Cursor. -/
theorem acceptTag_cursor (t : Tag) (s : State) :
    (acceptTag t s).cx = s.cx ∧ (acceptTag t s).cy = s.cy ∨ (acceptTag t s).cx = 0 ∧ (acceptTag t s).cy = 0 := by
  by_cases hsync : t = .sync
  · subst hsync
    exact .inr ⟨rfl, rfl⟩
  · by_cases hargs : tagArgs t = 0
    · rw [acceptTag_of_no_arguments s hsync hargs]
      exact .inl ⟨rfl, rfl⟩
    · rw [acceptTag_of_arguments s hargs]
      exact .inl ⟨rfl, rfl⟩

/-- R111: the receiver leaves the Cursor or homes it. -/
theorem receive_cursor {b : Byte} {s t : State} (h : receive b s = .next t) :
    t.cx = s.cx ∧ t.cy = s.cy ∨ t.cx = 0 ∧ t.cy = 0 := by
  rcases receive_cases b s with ⟨-, e⟩ | ⟨-, -, -, e⟩ | ⟨-, -, -, e⟩ | ⟨-, -, -, e⟩ | ⟨-, -, -, -, e⟩ |
    ⟨-, -, -, -, k, -, e⟩ | ⟨-, -, -, -, -, e⟩ <;> rw [e] at h <;> cases h
  · exact .inl ⟨rfl, rfl⟩
  · exact .inl ⟨rfl, rfl⟩
  · rw [colourArm_frame]
    exact .inl ⟨rfl, rfl⟩
  · rw [colourArm_frame]
    exact .inl ⟨rfl, rfl⟩
  · exact .inl ⟨rfl, rfl⟩
  · exact acceptTag_cursor k (clearEsc s)
  · exact .inl ⟨rfl, rfl⟩

theorem Inv.receive {b : Byte} {s t : State} (hs : Inv s) (h : receive b s = .next t) : Inv t := by
  obtain ⟨hframe, hflight⟩ := receive_frame h
  obtain ⟨hlegal, hready, hargs, ⟨hx, hy⟩, hq, howed, hbr, hctr, hwf, haddr⟩ := hs
  obtain ⟨hready', hargs'⟩ := receive_handshake ⟨hready, hargs⟩ h
  have hcursor : t.cx < s.cfg.frameW ∧ t.cy < s.cfg.frameH := by
    rcases receive_cursor h with ⟨hcx, hcy⟩ | ⟨hcx, hcy⟩ <;> rw [hcx, hcy]
    · exact ⟨hx, hy⟩
    · exact ⟨Nat.zero_lt_of_lt hx, Nat.zero_lt_of_lt hy⟩
  have howed' (ho : s.readyOwed = true) : t.ready = true ∧ t.tag = .putcolor := by
    obtain ⟨hr, htag⟩ := howed ho
    exact ⟨(hflight hr).1, (hflight hr).2.elim (·.trans htag) id⟩
  rw [hframe]
  exact ⟨hlegal, hready', hargs', hcursor, hq, howed', hbr, hctr, hwf, haddr⟩

/-! ### Writes of the dispatcher -/

theorem Inv.legal {s : State} (hs : Inv s) : s.cfg.legal = true := hs.1

theorem Inv.cursor {s : State} (hs : Inv s) : s.cx < s.cfg.frameW ∧ s.cy < s.cfg.frameH := by
  obtain ⟨-, -, -, hcursor, -⟩ := hs
  exact hcursor

theorem Inv.rq_length_le {s : State} (hs : Inv s) : s.rq.length ≤ s.cfg.rqCapacity := by
  obtain ⟨-, -, -, -, hq, -⟩ := hs
  exact hq

theorem Inv.counters {s : State} (hs : Inv s) :
    s.btnCtr < s.cfg.btnPollInterval ∧ s.exitCtr < s.cfg.exitPollInterval := by
  obtain ⟨-, -, -, -, -, -, -, hctr, -⟩ := hs
  exact hctr

/-- The queue may be rewritten within its capacity. -/
theorem Inv.setRq {s : State} (hs : Inv s) {q : List Byte} (hq : q.length ≤ s.cfg.rqCapacity) :
    Inv { s with rq := q } := by
  obtain ⟨hlegal, hready, hargs, hcursor, -, hrest⟩ := hs
  exact ⟨hlegal, hready, hargs, hcursor, hq, hrest⟩

/-- A command may be consumed where no Ready is owed. -/
theorem Inv.consume {s : State} (hs : Inv s) (ho : s.readyOwed = false) : Inv (consume s) := by
  obtain ⟨hlegal, -, hargs, hcursor, hq, -, hrest⟩ := hs
  exact ⟨hlegal, nofun, fun ha => ⟨(hargs ha).1, rfl⟩, hcursor, hq, fun h => absurd (ho.symm.trans h) nofun, hrest⟩

/-- The debt of a Ready may be cleared. -/
theorem Inv.clearOwed {s : State} (hs : Inv s) : Inv { s with readyOwed := false } := by
  obtain ⟨hlegal, hready, hargs, hcursor, hq, -, hrest⟩ := hs
  exact ⟨hlegal, hready, hargs, hcursor, hq, nofun, hrest⟩

/-- A Ready may be owed for the PUTCOLOR in flight. -/
theorem Inv.owe {s : State} (hs : Inv s) (hr : s.ready = true) (ht : s.tag = .putcolor) :
    Inv { s with readyOwed := true } := by
  obtain ⟨hlegal, hready, hargs, hcursor, hq, -, hrest⟩ := hs
  exact ⟨hlegal, hready, hargs, hcursor, hq, fun _ => ⟨hr, ht⟩, hrest⟩

/-- The Cursor may move within the frame. -/
theorem Inv.setCursor {s : State} (hs : Inv s) {x y : Nat} (hx : x < s.cfg.frameW) (hy : y < s.cfg.frameH) :
    Inv { s with cx := x, cy := y } := by
  obtain ⟨hlegal, hready, hargs, -, hrest⟩ := hs
  exact ⟨hlegal, hready, hargs, ⟨hx, hy⟩, hrest⟩

theorem Inv.setBrightness {s : State} (hs : Inv s) {v : Byte}
    (hv : s.cfg.brMin.toNat ≤ v.toNat ∧ v.toNat ≤ s.cfg.brMax.toNat) : Inv { s with brightness := v } := by
  obtain ⟨hlegal, hready, hargs, hcursor, hq, howed, -, hrest⟩ := hs
  exact ⟨hlegal, hready, hargs, hcursor, hq, howed, hv, hrest⟩

/-- The two iteration counters may be rewritten within their intervals. -/
theorem Inv.setCounters {s : State} (hs : Inv s) {b e : Nat} (hb : b < s.cfg.btnPollInterval)
    (he : e < s.cfg.exitPollInterval) : Inv { s with btnCtr := b, exitCtr := e } := by
  obtain ⟨hlegal, hready, hargs, hcursor, hq, howed, hbr, -, hrest⟩ := hs
  exact ⟨hlegal, hready, hargs, hcursor, hq, howed, hbr, ⟨hb, he⟩, hrest⟩

/-- R41, R43: a pixel in the frame has its bytes in the frame buffer. -/
theorem fbAddr_lt {w h x y c : Nat} (hx : x < w) (hy : y < h) (hc : c < 3) : fbAddr w x y c < w * h * 3 := by
  have hrow : (y + 1) * w ≤ h * w := Nat.mul_le_mul_right w hy
  rw [Nat.succ_mul] at hrow
  rw [fbAddr, Nat.mul_comm w h]
  omega

theorem pixelWritten_wf {s : State} (r g b : Byte) (h : s.fb.wf) : (pixelWritten r g b s).wf :=
  fbWrite_wf (fbWrite_wf (fbWrite_wf h s 0 _) s 1 _) s 2 _

/-- The addresses of the frame buffer after a pixel is written. -/
theorem mem_pixelWritten {r g b : Byte} {s : State} {p : Host.Cell} (hp : p ∈ pixelWritten r g b s) :
    (∃ c, c < 3 ∧ p.1 = fbAddr s.cfg.frameW s.cx s.cy c) ∨ p ∈ s.fb := by
  rcases Memory.mem_write hp with h | hp
  · exact .inl ⟨2, by decide, h⟩
  rcases Memory.mem_write hp with h | hp
  · exact .inl ⟨1, by decide, h⟩
  rcases Memory.mem_write hp with h | hp
  · exact .inl ⟨0, by decide, h⟩
  · exact .inr hp

theorem Inv.writePixel {s : State} (hs : Inv s) (r g b : Byte) : Inv { s with fb := pixelWritten r g b s } := by
  obtain ⟨hlegal, hready, hargs, ⟨hx, hy⟩, hq, howed, hbr, hctr, hwf, haddr⟩ := hs
  refine ⟨hlegal, hready, hargs, ⟨hx, hy⟩, hq, howed, hbr, hctr, pixelWritten_wf r g b hwf, fun p hp => ?_⟩
  rcases mem_pixelWritten hp with ⟨c, hc, e⟩ | hp
  · exact e ▸ fbAddr_lt hx hy hc
  · exact haddr p hp

/-- R138: the clamped brightness is in range. -/
theorem brightnessOf_in_range {c : Config} (h : c.legal = true) (a : Byte) :
    c.brMin.toNat ≤ (brightnessOf c a).toNat ∧ (brightnessOf c a).toNat ≤ c.brMax.toNat := by
  obtain ⟨-, -, -, hmin, hmax, -⟩ := c.legal_iff.1 h
  unfold brightnessOf clamp
  split_ifs <;> omega

/-! ### The command in the slot -/

/-- The queue may grow by what is free. -/
theorem Inv.enqueue {s : State} (hs : Inv s) {p : List Byte} (hp : p.length ≤ rqFree s) :
    Inv { s with rq := s.rq ++ p } := by
  have hq : s.rq.length ≤ s.cfg.rqCapacity := hs.rq_length_le
  unfold rqFree at hp
  exact hs.setRq (by rw [List.length_append]; omega)

/-- One byte fits a queue that is not full. -/
theorem Inv.enqueueByte {s : State} (hs : Inv s) (b : Byte) (hroom : s.rq.length < s.cfg.rqCapacity) :
    Inv { s with rq := s.rq ++ [b] } :=
  hs.enqueue (Nat.sub_pos_of_lt hroom)

theorem Inv.answer {s : State} (hs : Inv s) (ho : s.readyOwed = false) (p : List Byte) : Inv (answer p s) := by
  by_cases hroom : p.length ≤ rqFree s
  · rw [answer_of_room p hroom]
    exact (hs.enqueue hroom).consume ho
  · rwa [answer_of_no_room p (Nat.lt_of_not_le hroom)]

theorem Inv.applyAndAck {apply : State → State} {s : State} (hs : Inv s) (ha : Inv (apply s))
    (ho : (apply s).readyOwed = false) (hrq : (apply s).rq = s.rq) (hcfg : (apply s).cfg = s.cfg) :
    Inv (applyAndAck apply s) := by
  rcases applyAndAck_cases hrq hcfg with e | ⟨hroom, e⟩ <;> rw [e]
  · exact hs
  · rw [← hrq, ← hcfg] at hroom
    rw [← hrq]
    exact (ha.enqueueByte readyByte hroom).consume ho

theorem Inv.execPutcolor {r g b : Byte} {s t : State} (hs : Inv s) (hr : s.ready = true) (ht : s.tag = .putcolor)
    (ho : s.readyOwed = false) (h : execPutcolor r g b s = .next t) : Inv t := by
  have hw : Inv { s with fb := pixelWritten r g b s } := hs.writePixel r g b
  have hx0 : 0 < s.cfg.frameW := Nat.zero_lt_of_lt hs.cursor.1
  have hy0 : 0 < s.cfg.frameH := Nat.zero_lt_of_lt hs.cursor.2
  rcases execPutcolor_cases r g b s with ⟨-, e⟩ | ⟨hx, hy, e⟩ | ⟨-, hy, e⟩ | ⟨-, -, e⟩ <;>
    rw [e] at h <;> cases h
  · exact (hw.setCursor hx hy).consume ho
  · exact (hw.setCursor hx0 hy).consume ho
  · exact (hw.setCursor hx0 hy0).owe hr ht

theorem Inv.exec_slot {s t : State} (hs : Inv s) (hr : s.ready = true) (ho : s.readyOwed = false)
    (h : exec (slotInstr s) s = .next t) : Inv t := by
  cases htag : s.tag with
  | putcolor =>
    rw [slotInstr_of_putcolor htag] at h
    exact hs.execPutcolor hr htag ho h
  | sync =>
    simp only [slotInstr, htag, exec_sync] at h; cases h
    exact (hs.setCursor (Nat.zero_lt_of_lt hs.cursor.1) (Nat.zero_lt_of_lt hs.cursor.2)).consume ho
  | getbr | getacs | getacv =>
    simp only [slotInstr, htag, exec_getbr, exec_getacs, exec_getacv] at h; cases h
    exact hs.answer ho _
  | setbr =>
    simp only [slotInstr, htag, exec_setbr] at h; cases h
    exact hs.applyAndAck (hs.setBrightness (brightnessOf_in_range hs.legal _)) ho rfl rfl
  | setacs | setnum =>
    simp only [slotInstr, htag, exec_setacs, exec_setnum] at h; cases h
    exact hs.applyAndAck hs ho rfl rfl

/-! ### A dispatcher step -/

theorem Inv.exec_ready {s t : State} (hs : Inv s) (h : exec .ready s = .next t) : Inv t := by
  rcases execReady_cases s with ⟨-, e⟩ | ⟨hroom, e⟩
  · cases e.symm.trans h
    exact hs
  · cases e.symm.trans h
    exact (hs.enqueueByte readyByte hroom).clearOwed.consume rfl

theorem Inv.idleTurn {s t : State} (hs : Inv s) (h : idleTurn s = .next t) : Inv t := by
  obtain ⟨hbtn, hexit⟩ := hs.counters
  have hpolled : Inv { s with btnCtr := 0, btnIdx := nextButton s.btnIdx } :=
    hs.setCounters (Nat.zero_lt_of_lt hbtn) hexit
  rcases idleTurn_cases s with ⟨hne, e⟩ | ⟨-, e⟩ | ⟨-, hroom, e⟩ <;> rw [e] at h <;> cases h
  · exact hs.setCounters (by omega) hexit
  · exact hpolled
  · exact hpolled.enqueueByte _ hroom

theorem Inv.exitCheck {s : State} (hs : Inv s) : Inv (exitCheck s) := by
  obtain ⟨hbtn, hexit⟩ := hs.counters
  have hrestart : Inv { s with exitCtr := 0 } := hs.setCounters hbtn (Nat.zero_lt_of_lt hexit)
  unfold Machine.exitCheck
  split_ifs with hdue hpressed
  · exact hrestart
  · exact hrestart
  · exact hs.setCounters hbtn (by omega)

theorem Inv.dispTurn {s t : State} (hs : Inv s) (h : dispTurn s = .next t) : Inv t := by
  rcases dispTurn_cases s with ⟨-, e⟩ | ⟨-, -, e⟩ | ⟨-, ho, hr, e⟩ | ⟨-, -, -, e⟩ <;> rw [e] at h
  · cases h
    exact hs
  · exact hs.exec_ready h
  · obtain ⟨u, hu, rfl⟩ := mapNext_eq_next h
    exact (hs.exec_slot hr ho hu).exitCheck
  · obtain ⟨u, hu, rfl⟩ := mapNext_eq_next h
    exact (hs.idleTurn hu).exitCheck

/-! ### Every move -/

theorem Inv.rxTurn {s t : State} (hs : Inv s) (h : rxTurn s = .next t) : Inv t := by
  rcases rxTurn_cases s with ⟨-, e⟩ | ⟨-, b, rest, -, e⟩ <;> rw [e] at h
  · cases h
    exact hs
  · exact Inv.receive (s := { s with h2d := rest }) hs h

theorem Inv.txdTurn {s : State} (hs : Inv s) : Inv (txdTurn s) := by
  rcases txdTurn_cases s with ⟨-, e⟩ | ⟨-, b, rest, hq, e⟩ <;> rw [e]
  · exact hs
  · have hlen : rest.length ≤ s.cfg.rqCapacity :=
      (Nat.le_succ _).trans (by simpa [hq] using hs.rq_length_le)
    exact hs.setRq hlen

theorem Inv.runMove {m : Move} {s t : State} (hs : Inv s) (h : runMove m s = .next t) : Inv t := by
  by_cases hrx : m = .rx
  · subst hrx
    exact hs.rxTurn h
  by_cases hdisp : m = .disp
  · subst hdisp
    exact hs.dispTurn h
  by_cases htxd : m = .txd
  · subst htxd
    cases h
    exact hs.txdTurn
  · rw [outside_frame ⟨hrx, hdisp, htxd⟩ h]
    exact hs

/-- Settles O52: by the agent that moves; drawing the move writes nothing the invariant reads. -/
theorem invariantKeptByEveryStep : Obligations.InvariantKeptByEveryStep := by
  intro s t hs h
  obtain ⟨ms, k, h⟩ := runMove_of_step h
  exact Inv.runMove (s := { s with moves := ms, tick := k }) hs h

/-! ### No step of the block stops -/

/-- R43: with the Cursor in the frame a dispatcher step goes on. -/
theorem dispTurn_next {s : State} (hcursor : s.cx < s.cfg.frameW ∧ s.cy < s.cfg.frameH) :
    ∃ t, dispTurn s = .next t := by
  rcases dispTurn_cases s with ⟨-, e⟩ | ⟨-, -, e⟩ | ⟨-, -, -, e⟩ | ⟨-, -, -, e⟩ <;> rw [e]
  · exact ⟨_, rfl⟩
  · exact ⟨_, rfl⟩
  · by_cases htag : s.tag = .putcolor
    · rw [slotInstr_of_putcolor htag, exec_putcolor]
      rcases execPutcolor_cases s.col[0] s.col[1] s.col[2] s with ⟨hout, -⟩ | ⟨-, -, e⟩ | ⟨-, -, e⟩ | ⟨-, -, e⟩
      · exact absurd hcursor hout
      · exact ⟨_, by rw [e, mapNext_next]⟩
      · exact ⟨_, by rw [e, mapNext_next]⟩
      · exact ⟨_, by rw [e, mapNext_next]⟩
    · obtain ⟨u, hu, -⟩ := exec_slot_wire htag
      exact ⟨_, by rw [hu, mapNext_next]⟩
  · rcases idleTurn_cases s with ⟨-, e⟩ | ⟨-, e⟩ | ⟨-, -, e⟩ <;> exact ⟨_, by rw [e, mapNext_next]⟩

/-- R114: the receiver's turn goes on in every state. -/
theorem rxTurn_next (s : State) : ∃ t, rxTurn s = .next t := by
  rcases rxTurn_cases s with ⟨-, e⟩ | ⟨-, b, rest, -, e⟩ <;> rw [e]
  · exact ⟨s, rfl⟩
  · exact receive_next b _

/-- R95: a `send` goes on unless its frame has the wrong size. -/
theorem hostSendTurn_cases (f : Frame) (s : State) :
    (∃ t, hostSendTurn f s = .next t) ∨
    hostSendTurn f s = .refused .frameDimensions ∧ frameFits s.cfg f = false := by
  by_cases hsending : sending s = true
  · exact .inl ⟨s, if_pos hsending⟩
  rw [hostSendTurn, if_neg hsending]
  by_cases hfits : frameFits s.cfg f = true
  · exact .inl ⟨_, if_pos hfits⟩
  · exact .inr ⟨if_neg hfits, Bool.eq_false_iff.2 hfits⟩

/-- R205: with the Cursor in the frame every move goes on but a `send` of a frame of the wrong size. -/
theorem runMove_next_or_refused (m : Move) {s : State} (hcursor : s.cx < s.cfg.frameW ∧ s.cy < s.cfg.frameH) :
    (∃ t, runMove m s = .next t) ∨
    runMove m s = .refused .frameDimensions ∧ ∃ f, m = .hostSend f ∧ frameFits s.cfg f = false := by
  cases m with
  | rx => exact .inl (rxTurn_next s)
  | disp => exact .inl (dispTurn_next hcursor)
  | hostSend f => exact (hostSendTurn_cases f s).imp_right fun ⟨h, hfits⟩ => ⟨h, f, rfl, hfits⟩
  | txd | hostByte | hostWrite | hostRead | hostFail | hostClose | envButtons | envAccel | envTxReady =>
    exact .inl ⟨_, rfl⟩

/-- Settles O59: the invariant keeps the Cursor in the frame, and drawing the move leaves it there. -/
theorem blockNeverFaults : Obligations.BlockNeverFaults := by
  intro s hs
  rw [step_eq, drawMove_frame]
  exact runMove_next_or_refused (drawMove s).1
    (s := { s with moves := (drawMove s).2.moves, tick := (drawMove s).2.tick }) hs.cursor

end Sys2Proof.Machine
end

section
/-! The round trip of 40_encoder.md R97: the preamble, one pixel, and all pixels of a frame, received with the
pacing of 70_reset_and_hazards.md R234. -/

namespace Sys2Proof.Machine

/-! ### Paced receipt -/

theorem dispatchReady_of_not_ready {s : State} (hr : s.ready = false) : dispatchReady s = .next s := by
  simp [dispatchReady, hr]

theorem dispatchReady_of_ready {s : State} (hr : s.ready = true) :
    dispatchReady s = andThen (dispTurn s) fun t => if t.ready then dispTurn t else .next t := if_pos hr

/-- Receipt of a byte, its dispatch, and the rest. -/
theorem pacedReceive_cons {b : Byte} {s t : State} (h : receive b s = .next t) (bs : List Byte) :
    pacedReceive (b :: bs) s = andThen (dispatchReady t) (pacedReceive bs) := by
  rw [pacedReceive, h, andThen_next]

/-- A byte that makes no command ready. -/
theorem pacedReceive_cons_of_not_ready {b : Byte} {s t : State} (h : receive b s = .next t) (hr : t.ready = false)
    (bs : List Byte) : pacedReceive (b :: bs) s = pacedReceive bs t := by
  rw [pacedReceive_cons h, dispatchReady_of_not_ready hr, andThen_next]

/-- R184: where the exit buttons are not both pressed, the exit check after a dispatch only counts. -/
theorem mapNext_exitCheck_of_not_pressed {r : Result} {u : State} (hr : r = .next u)
    (h : ¬(u.btnLive[4] = true ∧ u.btnLive[5] = true)) :
    ∃ e, mapNext exitCheck r = .next { u with exitCtr := e } := by
  have hexit : ¬exitPressed u = true := mt Bool.and_eq_true_iff.1 h
  rw [hr, mapNext_next, exitCheck]
  split_ifs
  · exact ⟨_, rfl⟩
  · exact ⟨_, rfl⟩

/-- Where a pixel begins: a unit boundary with nothing in flight, owed or half received, in a session that the
exit buttons are not ending. -/
structure PixelBoundary (s : State) : Prop where
  running : s.running = true
  argn : s.argn = 0
  esc : s.esc = false
  ready : s.ready = false
  owed : s.readyOwed = false
  cidx : s.cidx = 0
  stays : ¬(s.btnLive[4] = true ∧ s.btnLive[5] = true)

/-! ### The preamble -/

/-- R111, R136: the preamble homes the Cursor, and leaves nothing in flight. -/
theorem pacedReceive_preamble {s : State} (hr : s.running = true) (ha : s.argn = 0) (he : s.esc = false)
    (hc : s.ready = false) (ho : s.readyOwed = false) (hcidx : s.cfg.syncResetsCidx = false → s.cidx = 0)
    (hlive : ¬(s.btnLive[4] = true ∧ s.btnLive[5] = true)) :
    ∃ e, ∀ bs, pacedReceive (escByte :: 0x00#8 :: bs) s =
      pacedReceive bs { s with tag := .sync, cx := 0, cy := 0, cidx := 0, exitCtr := e } := by
  have hzero : (if s.cfg.syncResetsCidx then 0 else s.cidx) = 0 := by
    split_ifs with h
    · rfl
    · exact hcidx (Bool.eq_false_iff.2 h)
  have htag : receive 0x00#8 (escapeSeen s) = .next (acceptTag .sync s) := by
    rw [receive_tag (s := escapeSeen s) (t := .sync) ha rfl hc (by decide) rfl,
      clearEsc_escapeSeen he]
  have hdisp : dispTurn (acceptTag .sync s) = mapNext exitCheck (exec .sync (acceptTag .sync s)) :=
    dispTurn_of_command hr ho rfl
  obtain ⟨e, hexit⟩ := mapNext_exitCheck_of_not_pressed (exec_sync (acceptTag .sync s)) hlive
  refine ⟨e, fun bs => ?_⟩
  rw [pacedReceive_cons_of_not_ready (receive_escByte ha he) hc, pacedReceive_cons htag,
    dispatchReady_of_ready rfl, hdisp, hexit]
  simp [acceptTag_sync, hzero, consume, cursorHome, hc]

/-! ### One pixel -/

/-- R91: the bytes of a pixel. -/
def pixelBytes (q : Pixel) : List Byte := escComp q.r ++ (escComp q.g ++ escComp q.b)

/-- R117: with nothing in flight, the bytes of a component store it, and what that makes ready is dispatched. -/
theorem pacedReceive_escComp {s : State} (c : Byte) (ha : s.argn = 0) (he : s.esc = false) (hc : s.ready = false)
    (bs : List Byte) :
    pacedReceive (escComp c ++ bs) s = andThen (dispatchReady (colourStore c s)) (pacedReceive bs) := by
  have hguard : ¬(s.ready = true ∧ s.tag = .putcolor) := fun h => absurd (hc.symm.trans h.1) nofun
  by_cases hesc : c = escByte
  · have hsecond : receive escByte (escapeSeen s) = .next (colourStore c s) := by
      rw [receive_litff (s := escapeSeen s) ha rfl, exec_litff, clearEsc_escapeSeen he,
        colourArm_of_not_busy _ hguard, hesc]
    rw [escComp, if_pos hesc, List.cons_append, pacedReceive_cons_of_not_ready (receive_escByte ha he) hc,
      List.cons_append, pacedReceive_cons hsecond, List.nil_append]
  · have hcolour : receive c s = .next (colourStore c s) := by
      rw [receive_color ha he hesc, exec_color, colourArm_of_not_busy _ hguard]
    rw [escComp, if_neg hesc, List.cons_append, pacedReceive_cons hcolour, List.nil_append]

/-- The slot after a pixel's bytes: its PUTCOLOR, ready. -/
def pixelReady (q : Pixel) (s : State) : State :=
  { s with col := #v[q.r, q.g, q.b], tag := .putcolor, ready := true }

/-- Written from the first register to the last, the component registers hold nothing else. -/
theorem col_set_three (col : Vector Byte 3) (r g b : Byte) :
    ((col.set 0 r).set 1 g).set 2 b = #v[r, g, b] := by
  ext i hi
  match i, hi with
  | 0, _ | 1, _ | 2, _ => simp

/-- R110: three components from component index 0 fill the slot with their PUTCOLOR. -/
theorem colourStore_three {s : State} (h : s.cidx = 0) (q : Pixel) :
    colourStore q.b (colourStore q.g (colourStore q.r s)) = pixelReady q s := by
  have hcol := col_set_three s.col q.r q.g q.b
  simp [colourStore, nextComponent, h, pixelReady, hcol]

/-- R110: with fewer than three components nothing is ready. -/
theorem colourStore_ready {s : State} (v : Byte) (h : s.cidx ≠ 2) : (colourStore v s).ready = s.ready :=
  if_neg h

/-- R110: the bytes of a pixel make its PUTCOLOR ready, which is dispatched. -/
theorem pacedReceive_pixelBytes {s : State} (hs : PixelBoundary s) (q : Pixel) (bs : List Byte) :
    pacedReceive (pixelBytes q ++ bs) s = andThen (dispatchReady (pixelReady q s)) (pacedReceive bs) := by
  have hcidx : (colourStore q.r s).cidx = 1 := by simp [colourStore, hs.cidx, nextComponent]
  have hred : (colourStore q.r s).ready = false := by
    rw [colourStore_ready _ (by rw [hs.cidx]; decide), hs.ready]
  have hgreen : (colourStore q.g (colourStore q.r s)).ready = false := by
    rw [colourStore_ready _ (by rw [hcidx]; decide), hred]
  rw [pixelBytes, List.append_assoc, List.append_assoc, pacedReceive_escComp q.r hs.argn hs.esc hs.ready,
    dispatchReady_of_not_ready hred, andThen_next,
    pacedReceive_escComp (s := colourStore q.r s) q.g hs.argn hs.esc hred,
    dispatchReady_of_not_ready hgreen, andThen_next,
    pacedReceive_escComp (s := colourStore q.g (colourStore q.r s)) q.b hs.argn hs.esc hgreen,
    colourStore_three hs.cidx]

/-- The index of the Cursor's pixel in row-major order (R41). -/
def pixelIndex (s : State) : Nat := s.cy * s.cfg.frameW + s.cx

/-- R133: a dispatch that does not complete the frame is one iteration; the Cursor is at the next pixel. -/
theorem dispatchReady_pixel {s : State} (hs : PixelBoundary s) (q : Pixel) (hx : s.cx < s.cfg.frameW)
    (hy : s.cy < s.cfg.frameH) (hmore : pixelIndex s + 1 < s.cfg.frameW * s.cfg.frameH) :
    ∃ x y e, dispatchReady (pixelReady q s) =
        .next { pixelReady q s with
          ready := false, fb := pixelWritten q.r q.g q.b s, cx := x, cy := y, exitCtr := e } ∧
      x < s.cfg.frameW ∧ y < s.cfg.frameH ∧ y * s.cfg.frameW + x = pixelIndex s + 1 := by
  have hdisp : dispTurn (pixelReady q s) = mapNext exitCheck (execPutcolor q.r q.g q.b (pixelReady q s)) :=
    dispTurn_of_command hs.running hs.owed rfl
  rw [dispatchReady_of_ready rfl, hdisp]
  rcases execPutcolor_cases q.r q.g q.b (pixelReady q s) with ⟨hout, -⟩ | ⟨hx', -, e⟩ | ⟨hx', hy', e⟩ | ⟨hx', hy', -⟩
  · exact absurd ⟨hx, hy⟩ hout
  · obtain ⟨k, hk⟩ := mapNext_exitCheck_of_not_pressed e hs.stays
    rw [hk]
    exact ⟨s.cx + 1, s.cy, k, rfl, hx', hy, rfl⟩
  · obtain ⟨k, hk⟩ := mapNext_exitCheck_of_not_pressed e hs.stays
    rw [hk]
    refine ⟨0, s.cy + 1, k, rfl, Nat.zero_lt_of_lt hx, hy', ?_⟩
    have hrow : s.cx + 1 = s.cfg.frameW := hx'
    rw [pixelIndex, Nat.succ_mul, ← hrow]
    omega
  · have hrow : s.cx + 1 = s.cfg.frameW := hx'
    have hcol : s.cy + 1 = s.cfg.frameH := hy'
    rw [pixelIndex, Nat.mul_comm s.cfg.frameW, ← hcol, Nat.succ_mul] at hmore
    omega

/-- R135: with one byte free, READY is queued, the debt cleared, and the command consumed. -/
theorem exec_ready_of_room {s : State} (hroom : s.rq.length < s.cfg.rqCapacity) :
    exec .ready s = .next { s with rq := s.rq ++ [readyByte], readyOwed := false, ready := false } :=
  ((execReady_cases s).resolve_left fun ⟨hfull, _⟩ => hfull.not_gt hroom).2

/-- R133, R135: the dispatch that completes the frame latches it, and the next iteration queues its Ready. -/
theorem dispatchReady_last_pixel {s : State} (hs : PixelBoundary s) (q : Pixel) (hx : s.cx + 1 = s.cfg.frameW)
    (hy : s.cy + 1 = s.cfg.frameH) (hroom : s.rq.length < s.cfg.rqCapacity) :
    ∃ e, dispatchReady (pixelReady q s) =
      .next { pixelReady q s with
        ready := false, readyOwed := false, fb := pixelWritten q.r q.g q.b s, cx := 0, cy := 0, exitCtr := e
        frames := s.frames + 1, shown := pixelWritten q.r q.g q.b s, rq := s.rq ++ [readyByte] } := by
  have hdisp : dispTurn (pixelReady q s) = mapNext exitCheck (execPutcolor q.r q.g q.b (pixelReady q s)) :=
    dispTurn_of_command hs.running hs.owed rfl
  rw [dispatchReady_of_ready rfl, hdisp]
  rcases execPutcolor_cases q.r q.g q.b (pixelReady q s) with ⟨hout, -⟩ | ⟨hx', -⟩ | ⟨-, hy', -⟩ | ⟨-, -, e⟩
  · exact absurd ⟨Nat.lt_of_succ_le hx.le, Nat.lt_of_succ_le hy.le⟩ hout
  · exact absurd hx hx'.ne
  · exact absurd hy hy'.ne
  · obtain ⟨k, hk⟩ := mapNext_exitCheck_of_not_pressed e hs.stays
    rw [hk, andThen_next]
    refine ⟨k, (if_pos rfl).trans ((dispTurn_of_owed ?_ rfl).trans (exec_ready_of_room ?_))⟩
    · exact hs.running
    · exact hroom

/-- R41: the addresses of the Cursor's pixel, by its index. -/
theorem fbAddr_cursor (s : State) (c : Nat) : fbAddr s.cfg.frameW s.cx s.cy c = pixelIndex s * 3 + c := rfl

/-- Where the Cursor's pixel is the last one, the Cursor is in the last column and the last row. -/
theorem cursor_of_pixelIndex_last {s : State} (hx : s.cx < s.cfg.frameW) (hy : s.cy < s.cfg.frameH)
    (hlast : pixelIndex s + 1 = s.cfg.frameW * s.cfg.frameH) :
    s.cx + 1 = s.cfg.frameW ∧ s.cy + 1 = s.cfg.frameH := by
  have hrow : (s.cy + 1) * s.cfg.frameW ≤ s.cfg.frameH * s.cfg.frameW := Nat.mul_le_mul_right _ hy
  rw [pixelIndex, Nat.mul_comm s.cfg.frameW] at hlast
  rw [Nat.succ_mul] at hrow
  have hcol : s.cx + 1 = s.cfg.frameW := by omega
  refine ⟨hcol, Nat.eq_of_mul_eq_mul_right (Nat.zero_lt_of_lt hx) ?_⟩
  rw [Nat.succ_mul]
  omega

/-! ### All pixels from one on -/

/-- What the receipt of the pixels `qs`, from the Cursor's to the last of the frame, has done: every component
scaled in its place and the bytes before them kept, the frame latched once, one Ready queued, and nothing left. -/
structure FrameCompleted (qs : List Pixel) (s t : State) : Prop where
  placed : ∀ (j : Nat) (q : Pixel) (c : Fin 3), qs[j]? = some q →
    t.fb.read ((pixelIndex s + j) * 3 + c.val) = some (Config.scale s.brightness (pixelComponent q c))
  before : ∀ a, a < pixelIndex s * 3 → t.fb.read a = s.fb.read a
  cfg : t.cfg = s.cfg
  frames : t.frames = s.frames + 1
  shown : t.shown = t.fb
  cursor : t.cx = 0 ∧ t.cy = 0
  cidx : t.cidx = 0
  rq : t.rq = s.rq ++ [readyByte]
  ready : t.ready = false
  owed : t.readyOwed = false
  running : t.running = true

/-- R41: the pixel at the Cursor is written after all bytes before it. -/
theorem pixelWritten_read_before {s : State} (q : Pixel) {a : Nat} (ha : a < pixelIndex s * 3) :
    (pixelWritten q.r q.g q.b s).read a = s.fb.read a := by
  refine pixelWritten_read_other q.r q.g q.b fun c _ => ?_
  rw [fbAddr_cursor]
  omega

/-- The last pixel of the frame. -/
theorem frameCompleted_last {s : State} (hs : PixelBoundary s) (q : Pixel) (hx : s.cx < s.cfg.frameW)
    (hy : s.cy < s.cfg.frameH) (hlast : pixelIndex s + 1 = s.cfg.frameW * s.cfg.frameH)
    (hroom : s.rq.length < s.cfg.rqCapacity) :
    ∃ t, pacedReceive (pixelBytes q) s = .next t ∧ FrameCompleted [q] s t := by
  obtain ⟨hcol, hrow⟩ := cursor_of_pixelIndex_last hx hy hlast
  obtain ⟨e, he⟩ := dispatchReady_last_pixel hs q hcol hrow hroom
  have hrecv := pacedReceive_pixelBytes hs q []
  rw [List.append_nil, he, andThen_next, pacedReceive] at hrecv
  refine ⟨_, hrecv, ?_, fun a => pixelWritten_read_before q, rfl, rfl, rfl, ⟨rfl, rfl⟩, hs.cidx, rfl, rfl, rfl,
    hs.running⟩
  intro j p c hj
  cases j with
  | zero => cases hj; exact pixelWritten_read q.r q.g q.b s c
  | succ j => cases hj

/-- One more pixel before those that complete the frame. -/
theorem FrameCompleted.cons {qs : List Pixel} {q : Pixel} {s u t : State} (h : FrameCompleted qs u t)
    (hfb : u.fb = pixelWritten q.r q.g q.b s) (hindex : pixelIndex u = pixelIndex s + 1) (hcfg : u.cfg = s.cfg)
    (hbr : u.brightness = s.brightness) (hframes : u.frames = s.frames) (hrq : u.rq = s.rq) :
    FrameCompleted (q :: qs) s t := by
  have hkept (a : Nat) (ha : a < (pixelIndex s + 1) * 3) : t.fb.read a = (pixelWritten q.r q.g q.b s).read a := by
    rw [← hfb, h.before a (hindex ▸ ha)]
  refine ⟨fun j p c hj => ?_, fun a ha => ?_, h.cfg.trans hcfg, hframes ▸ h.frames, h.shown, h.cursor, h.cidx,
    hrq ▸ h.rq, h.ready, h.owed, h.running⟩
  · cases j with
    | zero =>
      cases hj
      rw [hkept _ (by omega)]
      exact pixelWritten_read q.r q.g q.b s c
    | succ j =>
      have hplaced := h.placed j p c hj
      rwa [hbr, hindex, Nat.add_assoc, Nat.add_comm 1 j] at hplaced
  · rw [hkept a (by omega), pixelWritten_read_before q ha]

/-- R97: the pixels from the Cursor's on, received up to the last of the frame, complete it. -/
theorem frameCompleted_of_pixels {qs : List Pixel} (hne : qs ≠ []) {s : State} (hs : PixelBoundary s)
    (hx : s.cx < s.cfg.frameW) (hy : s.cy < s.cfg.frameH)
    (hlen : pixelIndex s + qs.length = s.cfg.frameW * s.cfg.frameH) (hroom : s.rq.length < s.cfg.rqCapacity) :
    ∃ t, pacedReceive (qs.flatMap pixelBytes) s = .next t ∧ FrameCompleted qs s t := by
  induction qs generalizing s with
  | nil => exact absurd rfl hne
  | cons q qs ih =>
    rw [List.length_cons] at hlen
    rcases eq_or_ne qs [] with rfl | hqs
    · simpa using frameCompleted_last hs q hx hy hlen hroom
    · have hpos : 0 < qs.length := List.length_pos_iff.2 hqs
      obtain ⟨x, y, e, hdisp, hx', hy', hindex⟩ := dispatchReady_pixel hs q hx hy (by omega)
      have hlen' : y * s.cfg.frameW + x + qs.length = s.cfg.frameW * s.cfg.frameH := by omega
      have hs' : PixelBoundary { pixelReady q s with
          ready := false, fb := pixelWritten q.r q.g q.b s, cx := x, cy := y, exitCtr := e } :=
        ⟨hs.running, hs.argn, hs.esc, rfl, hs.owed, hs.cidx, hs.stays⟩
      obtain ⟨t, ht, hdone⟩ := ih hqs hs' hx' hy' hlen' hroom
      refine ⟨t, ?_, hdone.cons rfl hindex rfl rfl rfl rfl⟩
      rw [List.flatMap_cons, pacedReceive_pixelBytes hs, hdisp, andThen_next, ht]

/-! ### A whole frame -/

/-- R90: the bytes of a frame are the preamble and the bytes of its pixels in row-major order. -/
theorem encodeFrame_eq (f : Frame) : encodeFrame f = escByte :: 0x00#8 :: f.flatten.flatMap pixelBytes := by
  have hpixel : pixelBytes = fun q => (pixelComponents q).flatMap escComp := by
    funext q
    simp [pixelBytes, pixelComponents]
  rw [encodeFrame, frameComponents, hpixel]
  simp only [List.flatMap_assoc, ← List.flatMap_id, id_eq]

/-- R92: in a frame `w` wide, pixel `(x, y)` is number `y * w + x` in row-major order. -/
theorem flatten_getElem?_of_pixelAt {w : Nat} {f : Frame} (hf : ∀ row ∈ f, row.length = w) {x y : Nat} {q : Pixel}
    (h : pixelAt f x y = some q) : f.flatten[y * w + x]? = some q := by
  obtain ⟨row, hrow, hq⟩ := Option.bind_eq_some_iff.1 h
  have hx : x < w := by
    rw [← hf row (List.mem_of_getElem? hrow)]
    exact (List.getElem?_eq_some_iff.1 hq).1
  rw [← List.flatMap_id, getElem?_flatMap_of_length_eq (g := id) hx hf]
  exact h

/-- Settles O60: the preamble homes the Cursor to pixel 0, from which the pixels of the frame complete it. -/
theorem frameRoundTrip : Obligations.FrameRoundTrip := by
  intro f s hlegal hfits hr ha he hc ho hcidx hlive hfree
  obtain ⟨hw, hh, -⟩ := s.cfg.legal_iff.1 hlegal
  obtain ⟨hheight, hwidth⟩ := frameFits_iff.1 hfits
  have hlen : f.flatten.length = s.cfg.frameW * s.cfg.frameH := by
    rw [List.length_flatten, List.map_congr_left hwidth]
    simp [hheight, Nat.mul_comm]
  have hne : f.flatten ≠ [] := by
    rw [← List.length_pos_iff, hlen]
    exact Nat.mul_pos hw hh
  obtain ⟨e, hpreamble⟩ := pacedReceive_preamble hr ha he hc ho hcidx hlive
  have hstart : PixelBoundary { s with tag := .sync, cx := 0, cy := 0, cidx := 0, exitCtr := e } :=
    ⟨hr, ha, he, hc, ho, rfl, hlive⟩
  have hzero : 0 * s.cfg.frameW + 0 = 0 := by rw [Nat.zero_mul]
  have hlen' : 0 * s.cfg.frameW + 0 + f.flatten.length = s.cfg.frameW * s.cfg.frameH := by
    rw [hzero, hlen, Nat.zero_add]
  obtain ⟨t, ht, hdone⟩ := frameCompleted_of_pixels hne hstart hw hh hlen' (Nat.lt_of_sub_pos hfree)
  refine ⟨t, ?_, fun x y q c hq => ?_, hdone.frames, hdone.shown, hdone.cursor.1, hdone.cursor.2, hdone.cidx,
    hdone.rq, hdone.ready, hdone.owed, hdone.running⟩
  · rw [encodeFrame_eq, hpreamble, ht]
  · have hplaced := hdone.placed _ q c (flatten_getElem?_of_pixelAt hwidth hq)
    rw [pixelIndex, hzero, Nat.zero_add] at hplaced
    rw [fbRead, hdone.cfg]
    exact hplaced

end Sys2Proof.Machine
end

section
/-! The receiver as a whole (41_receiver.md): what a byte's receipt writes and what it reads (R100), the awaited
arguments (R102, R115), and the hazards while a command is in flight (20_memory.md R52, 70_reset_and_hazards.md
R235, R236). -/

namespace Sys2Proof.Machine

/-! ### What is written -/

/-- Settles O16: the receiver goes on in every state, with the frame of its receipt. -/
theorem receiverWritesOnlyItsState : Obligations.ReceiverWritesOnlyItsState := by
  intro b s
  obtain ⟨t, h⟩ := receive_next b s
  exact ⟨t, h, (receive_frame h).1⟩

/-! ### What is read -/

/-- What the receiver reads and writes: its own state, the Cursor, and the parameter SYNC_RESETS_CIDX. -/
structure SameReceiver (s u : State) : Prop where
  esc : s.esc = u.esc
  argn : s.argn = u.argn
  tag : s.tag = u.tag
  ready : s.ready = u.ready
  args : s.args = u.args
  cidx : s.cidx = u.cidx
  col : s.col = u.col
  cx : s.cx = u.cx
  cy : s.cy = u.cy
  sync : s.cfg.syncResetsCidx = u.cfg.syncResetsCidx

theorem SameReceiver.argArm {s u : State} (h : SameReceiver s u) (b : Byte) :
    SameReceiver (argArm b s) (argArm b u) :=
  { h with
    argn := by simp [Machine.argArm, h.argn]
    args := by simp [Machine.argArm, h.argn, h.args]
    ready := by simp [Machine.argArm, h.argn, h.ready] }

theorem SameReceiver.escapeSeen {s u : State} (h : SameReceiver s u) :
    SameReceiver (escapeSeen s) (escapeSeen u) := { h with esc := rfl }

theorem SameReceiver.clearEsc {s u : State} (h : SameReceiver s u) :
    SameReceiver (clearEsc s) (clearEsc u) := { h with esc := rfl }

theorem SameReceiver.colourArm {s u : State} (h : SameReceiver s u) (v : Byte) :
    SameReceiver (colourArm v s) (colourArm v u) := by
  have hguard : colourBusy s = colourBusy u := by simp [colourBusy, isCommandReady, h.ready, h.tag]
  unfold Machine.colourArm
  rw [hguard]
  split_ifs
  · exact h
  · exact { h with
      col := by simp [colourStore, h.col, h.cidx]
      cidx := by simp [colourStore, h.cidx]
      tag := by simp [colourStore, h.cidx, h.tag]
      ready := by simp [colourStore, h.cidx, h.ready] }

theorem SameReceiver.acceptTag {s u : State} (h : SameReceiver s u) (t : Tag) :
    SameReceiver (acceptTag t s) (acceptTag t u) := by
  by_cases hsync : t = .sync
  · subst hsync
    rw [acceptTag_sync, acceptTag_sync]
    exact { h with tag := rfl, ready := rfl, cx := rfl, cy := rfl, cidx := by simp only [h.sync, h.cidx] }
  by_cases hargs : tagArgs t = 0
  · rw [acceptTag_of_no_arguments s hsync hargs, acceptTag_of_no_arguments u hsync hargs]
    exact { h with tag := rfl, ready := rfl }
  · rw [acceptTag_of_arguments s hargs, acceptTag_of_arguments u hargs]
    exact { h with tag := rfl, argn := rfl }

/-- R100: the receiver's arm and what it writes are the same in two states that agree on what it reads. -/
theorem receive_sameReceiver {b : Byte} {s u t v : State} (h : SameReceiver s u) (ht : receive b s = .next t)
    (hv : receive b u = .next v) : SameReceiver t v := by
  rcases receive_cases b s with ⟨ha, e⟩ | ⟨ha, he, rfl, e⟩ | ⟨ha, he, hb, e⟩ | ⟨ha, he, rfl, e⟩ |
    ⟨ha, he, hb, hr, e⟩ | ⟨ha, he, hb, hr, k, hk, e⟩ | ⟨ha, he, hb, hr, hk, e⟩ <;>
    rw [e] at ht <;> cases ht <;> rw [h.argn] at ha
  · rw [receive, if_pos ha] at hv; cases hv
    exact h.argArm b
  · rw [receive_escByte ha (h.esc ▸ he)] at hv; cases hv
    exact h.escapeSeen
  · rw [receive_color ha (h.esc ▸ he) hb, exec_color] at hv; cases hv
    exact h.colourArm b
  · rw [receive_litff ha (h.esc ▸ he), exec_litff] at hv; cases hv
    exact h.clearEsc.colourArm escByte
  · rw [receive_tag_of_ready ha (h.esc ▸ he) (h.ready ▸ hr) hb] at hv; cases hv
    exact h.clearEsc
  · rw [receive_tag ha (h.esc ▸ he) (h.ready ▸ hr) hb hk] at hv; cases hv
    exact h.clearEsc.acceptTag k
  · rw [receive_reserved ha (h.esc ▸ he) (h.ready ▸ hr) hb hk, exec_rsvd] at hv; cases hv
    exact h.clearEsc

/-- Settles O17: the two runs take the same arm, which writes the same. -/
theorem receiverReadsOnlyItsState : Obligations.ReceiverReadsOnlyItsState := by
  intro b s u t v hesc hargn htag hready hargs hcidx hcol hcx hcy hsync ht hv
  obtain ⟨hesc', hargn', htag', hready', hargs', hcidx', hcol', hcx', hcy', -⟩ :=
    receive_sameReceiver ⟨hesc, hargn, htag, hready, hargs, hcidx, hcol, hcx, hcy, hsync⟩ ht hv
  exact ⟨hesc', hargn', htag', hready', hargs', hcidx', hcol', hcx', hcy'⟩

/-! ### Awaited arguments -/

/-- What the receipt of the awaited arguments `bs` has done: the command is complete, the registers they were
awaited for hold them in reverse order of arrival, and the other registers and the rest of the receiver's
state are as before. -/
structure ArgumentsReceived (bs : List Byte) (s t : State) : Prop where
  argn : t.argn = 0
  ready : t.ready = true
  tag : t.tag = s.tag
  esc : t.esc = s.esc
  cidx : t.cidx = s.cidx
  col : t.col = s.col
  written : ∀ j : Fin 3, j.val < bs.length → bs[bs.length - 1 - j.val]? = some t.args[j]
  kept : ∀ j : Fin 3, bs.length ≤ j.val → t.args[j] = s.args[j]

/-- R102, R115: as many bytes as there are awaited arguments complete the command. -/
theorem receiveAll_arguments {bs : List Byte} {s : State} (hne : bs ≠ []) (hlen : bs.length = s.argn.val) :
    ∃ t, receiveAll bs s = .next t ∧ ArgumentsReceived bs s t := by
  induction bs generalizing s with
  | nil => exact absurd rfl hne
  | cons b bs ih =>
    rw [List.length_cons] at hlen
    have hn : bs.length < 3 := by omega
    have hargn : s.argn = (⟨bs.length, hn⟩ : Fin 3).succ := Fin.ext hlen.symm
    rw [receiveAll_cons, receive_argument b hargn, andThen_next]
    have hset (j : Fin 3) : (s.args.set bs.length b hn)[j] = if bs.length = j.val then b else s.args[j] :=
      Vector.getElem_set hn j.isLt
    rcases eq_or_ne bs [] with rfl | hbs
    · refine ⟨_, rfl, rfl, rfl, rfl, rfl, rfl, rfl, fun j hj => ?_, fun j hj => ?_⟩
      · have hj : j.val = 0 := Nat.lt_one_iff.1 hj
        have hhead : [b][[b].length - 1 - j.val]? = some b := by simp [hj]
        exact hhead.trans (congrArg some ((hset j).trans (if_pos hj.symm)).symm)
      · exact (hset j).trans (if_neg (Nat.ne_of_lt hj))
    · obtain ⟨t, ht, hdone⟩ := ih hbs (s := { s with
          argn := (⟨bs.length, hn⟩ : Fin 3).castSucc
          args := s.args.set bs.length b hn
          ready := if (⟨bs.length, hn⟩ : Fin 3) = 0 then true else s.ready }) rfl
      refine ⟨t, ht, hdone.argn, hdone.ready, hdone.tag, hdone.esc, hdone.cidx, hdone.col,
        fun j hj => ?_, fun j hj => ?_⟩
      · rcases Nat.lt_succ_iff_lt_or_eq.1 hj with hlt | heq
        · have hindex : bs.length + 1 - 1 - j.val = (bs.length - 1 - j.val) + 1 := by omega
          rw [List.length_cons, hindex, List.getElem?_cons_succ]
          exact hdone.written j hlt
        · have hindex : bs.length + 1 - 1 - j.val = 0 := by omega
          rw [List.length_cons, hindex, List.getElem?_cons_zero, hdone.kept j heq.ge]
          exact congrArg some ((hset j).trans (if_pos heq.symm)).symm
      · rw [List.length_cons] at hj
        rw [hdone.kept j (Nat.le_of_succ_le hj)]
        exact (hset j).trans (if_neg (Nat.ne_of_lt hj))

/-- Settles O18: the receipt of the arguments, whose number is that of the registers. -/
theorem awaitedArgumentsCompleteTheCommand : Obligations.AwaitedArgumentsCompleteTheCommand := by
  intro bs s hargn hlen
  have hne : bs ≠ [] := by
    rintro rfl
    exact hargn (Fin.ext hlen.symm)
  obtain ⟨t, ht, hdone⟩ := receiveAll_arguments hne hlen
  exact ⟨t, ht, hdone.argn, hdone.ready, hdone.tag, hdone.esc, hdone.cidx, hdone.col, hlen ▸ hdone.written⟩

/-! ### While a command is in flight -/

/-- Settles O19: the escape is seen, the tag dropped, and the argument is a colour byte at a unit boundary. -/
theorem droppedTagLeavesArgumentAsColour : Obligations.DroppedTagLeavesArgumentAsColour := by
  intro a s ha he hr _ hcolour
  have hdrop : receive 0x02#8 (escapeSeen s) = .next s := by
    rw [receive_tag_of_ready (s := escapeSeen s) ha rfl hr (by decide), clearEsc_escapeSeen he]
  have hesc : receive 0xFF#8 s = .next (escapeSeen s) := receive_escByte ha he
  rw [encode, receiveAll_cons, hesc, andThen_next, receiveAll_cons, hdrop, andThen_next, receiveAll_cons, receive_color ha he hcolour, exec_color, andThen_next,
    receiveAll_nil]

/-- R110: while a wire command is in flight and fewer than three components are in, it stays in flight. -/
theorem colourStore_tag {s : State} (v : Byte) (h : s.cidx ≠ 2) : (colourStore v s).tag = s.tag := if_neg h

/-- Settles O20: each component is stored over the wire command, and the third makes the slot their PUTCOLOR. -/
theorem coloursOverwriteCommandInFlight : Obligations.ColoursOverwriteCommandInFlight := by
  intro r g b s ha he _ htag hcidx
  have store {u : State} (c : Byte) (hu : u.argn = 0) (hesc : u.esc = false) (ht : u.tag ≠ .putcolor) :
      receiveAll (escComp c) u = .next (colourStore c u) := by
    rw [receiveAll_escComp c hu hesc, colourArm_of_not_busy c fun h => ht h.2]
  have hcidx' : (colourStore r s).cidx = 1 := by simp [colourStore, hcidx, nextComponent]
  have hred : (colourStore r s).tag ≠ .putcolor := by rwa [colourStore_tag r (by rw [hcidx]; decide)]
  have hgreen : (colourStore g (colourStore r s)).tag ≠ .putcolor := by
    rwa [colourStore_tag g (by rw [hcidx']; decide)]
  refine ⟨pixelReady ⟨r, g, b⟩ s, ?_, rfl, rfl, rfl, hcidx⟩
  rw [receiveAll_append, receiveAll_append, store r ha he htag, andThen_next,
    store (u := colourStore r s) g ha he hred, andThen_next,
    store (u := colourStore g (colourStore r s)) b ha he hgreen, ← colourStore_three hcidx ⟨r, g, b⟩]

/-- R109: with a PUTCOLOR in flight the receiver writes `esc` only. -/
theorem receive_of_putcolor_in_flight {b : Byte} {s t : State} (hr : s.ready = true) (ha : s.argn = 0)
    (htag : s.tag = .putcolor) (h : receive b s = .next t) : t = { s with esc := t.esc } := by
  rcases receive_cases b s with ⟨hne, -⟩ | ⟨-, -, -, e⟩ | ⟨-, -, -, e⟩ | ⟨-, -, -, e⟩ | ⟨-, -, -, -, e⟩ |
    ⟨-, -, -, hidle, -⟩ | ⟨-, -, -, hidle, -⟩
  · exact absurd ha hne
  · rw [e] at h; cases h; rfl
  · rw [e, colourArm_of_busy b ⟨hr, htag⟩] at h; cases h; rfl
  · rw [e, colourArm_of_busy (s := clearEsc s) escByte ⟨hr, htag⟩] at h; cases h; rfl
  · rw [e] at h; cases h; rfl
  · exact absurd (hr.symm.trans hidle) nofun
  · exact absurd (hr.symm.trans hidle) nofun

/-- R110: over a wire command in flight a component is stored, and only the third one writes the tag. -/
theorem colourArm_of_wire_in_flight {s : State} (v : Byte) (hr : s.ready = true) (htag : s.tag ≠ .putcolor) :
    colourArm v s = { s with
      cidx := (colourArm v s).cidx, col := (colourArm v s).col, tag := (colourArm v s).tag } ∧
    ((colourArm v s).tag = s.tag ∨ (colourArm v s).tag = .putcolor ∧ s.cidx = 2) := by
  rw [colourArm_of_not_busy v fun h => htag h.2]
  by_cases hthird : s.cidx = 2
  · exact ⟨by simp [colourStore, hr], .inr ⟨if_pos hthird, hthird⟩⟩
  · exact ⟨by simp [colourStore, hr], .inl (if_neg hthird)⟩

/-- R52 (b): what the receiver writes while a wire command is in flight. -/
theorem receive_of_wire_in_flight {b : Byte} {s t : State} (hr : s.ready = true) (ha : s.argn = 0)
    (htag : s.tag ≠ .putcolor) (h : receive b s = .next t) :
    t = { s with esc := t.esc, cidx := t.cidx, col := t.col, tag := t.tag } ∧
    (t.tag = s.tag ∨ t.tag = .putcolor ∧ s.cidx = 2) := by
  rcases receive_cases b s with ⟨hne, -⟩ | ⟨-, -, -, e⟩ | ⟨-, -, -, e⟩ | ⟨-, -, -, e⟩ | ⟨-, -, -, -, e⟩ |
    ⟨-, -, -, hidle, -⟩ | ⟨-, -, -, hidle, -⟩
  · exact absurd ha hne
  · rw [e] at h; cases h; exact ⟨rfl, .inl rfl⟩
  · rw [e] at h; cases h
    obtain ⟨hframe, hkept⟩ := colourArm_of_wire_in_flight b hr htag
    exact ⟨by rw [hframe], hkept⟩
  · rw [e] at h; cases h
    obtain ⟨hframe, hkept⟩ := colourArm_of_wire_in_flight (s := clearEsc s) escByte hr htag
    exact ⟨by rw [hframe]; rfl, hkept⟩
  · rw [e] at h; cases h; exact ⟨rfl, .inl rfl⟩
  · exact absurd (hr.symm.trans hidle) nofun
  · exact absurd (hr.symm.trans hidle) nofun

/-- Settles O21: by whether the command in flight is a PUTCOLOR. -/
theorem commandInFlightIsStable : Obligations.CommandInFlightIsStable :=
  fun _ _ _ hr ha h =>
    ⟨fun htag => receive_of_putcolor_in_flight hr ha htag h, fun htag => receive_of_wire_in_flight hr ha htag h⟩

/-! ### A receive step -/

/-- R101, R104: with no argument awaited, a unit of the receiver that the pending escape and the byte make up is
what the receiver executes. -/
theorem receive_eq_exec {s : State} {b : Byte} {i : Instr} (ha : s.argn = 0)
    (hdec : decode (unitBytes b s) = .ok (i, []))
    (hi : (∃ v, i = .color v) ∨ i = .litff ∨ ∃ t, i = .rsvd t) : receive b s = exec i s := by
  obtain ⟨hwf, -, hbytes, -⟩ := decodesSoundly_of_decode hdec
  rw [List.append_nil, unitBytes] at hbytes
  rcases hi with ⟨v, rfl⟩ | rfl | ⟨t, rfl⟩ <;>
    rw [encode] at hbytes <;> split_ifs at hbytes with he <;> cases hbytes
  · exact receive_color ha (Bool.eq_false_iff.2 he) (of_decide_eq_true hwf)
  · exact receive_litff ha he
  · obtain ⟨hlow, hhigh⟩ : 7 ≤ b.toNat ∧ b.toNat ≤ 0xFE := of_decide_eq_true hwf
    have hb : b ≠ escByte := by
      rintro rfl
      exact absurd hhigh (by decide)
    cases hr : s.ready
    · exact receive_reserved ha he hr hb (tagOfByte_eq_none hlow)
    · exact receive_tag_of_ready ha he hr hb

/-- Settles O50: the receive interrupt takes the byte at the head of the channel. -/
theorem stepRunsReceivedUnit : Obligations.StepRunsReceivedUnit := by
  intro s ms b bs hm hr hh
  have hstep : step s = receive b { s with moves := ms, h2d := bs } := by
    rw [step_of_moves_eq hm]
    simp [runMove, rxTurn, takeByte, hr, hh]
  refine ⟨hstep, fun i ha hdec hi => ?_⟩
  rw [hstep]
  exact receive_eq_exec (s := { s with moves := ms, h2d := bs }) ha hdec hi

end Sys2Proof.Machine
end

section
/-! The Response Queue under all moves (43_response_queue.md): whole responses (R135, R143), the poller (R164), the
order of the bytes sent (R165), the ring form (R172), and the liveness of an owed Ready (R169) and of a deferred
command (R167) under the premises of 70_reset_and_hazards.md R246. -/

namespace Sys2Proof.Machine

/-! ### Responses -/

/-- R135: with the queue full, READY changes nothing. -/
theorem exec_ready_of_full {s : State} (hfull : s.cfg.rqCapacity ≤ s.rq.length) : exec .ready s = .next s :=
  ((execReady_cases s).resolve_right fun ⟨hroom, _⟩ => hfull.not_gt hroom).2

/-- Settles O33: READY with and without room, and the dispatcher step while it is owed. -/
theorem readyRetriedUntilQueued : Obligations.ReadyRetriedUntilQueued :=
  fun _ => ⟨exec_ready_of_room, exec_ready_of_full, dispTurn_of_owed⟩

/-- R75: RBR answers with its packet. -/
theorem exec_rbr (v : Byte) (s : State) : exec (.rbr v) s = .next (answer (encode (.rbr v)) s) := rfl

/-- R76: RACS answers with its packet. -/
theorem exec_racs (e : Bool) (s : State) : exec (.racs e) s = .next (answer (encode (.racs e)) s) := rfl

/-- R77: RACV answers with its packet. -/
theorem exec_racv (x y z : U16) (s : State) :
    exec (.racv x y z) s = .next (answer (encode (.racv x y z)) s) := rfl

/-- Settles O34: each response is an answer, of three, two and eight bytes. -/
theorem responseUnitsWholeOrNotAtAll : Obligations.ResponseUnitsWholeOrNotAtAll := by
  refine fun s => ⟨fun v => ⟨fun hroom => ?_, fun hfull => ?_⟩, fun e => ⟨fun hroom => ?_, fun hfull => ?_⟩,
    fun x y z => ⟨fun hroom => ?_, fun hfull => ?_⟩⟩
  · rw [exec_rbr, answer_of_room (encode (.rbr v)) hroom]
    rfl
  · rw [exec_rbr, answer_of_no_room (encode (.rbr v)) hfull]
  · rw [exec_racs, answer_of_room (encode (.racs e)) hroom, encode, accelHeader_eq]
    rfl
  · rw [exec_racs, answer_of_no_room (encode (.racs e)) hfull]
  · rw [exec_racv, answer_of_room (encode (.racv x y z)) hroom]
    rfl
  · rw [exec_racv, answer_of_no_room (encode (.racv x y z)) hfull]

/-! ### The poller -/

/-- Settles O38: the poller's step sends the head of the queue or does nothing. -/
theorem pollerSendsOldestByte : Obligations.PollerSendsOldestByte := by
  intro s ms hm
  rw [step_of_moves_eq hm, runMove]
  rcases txdTurn_cases { s with moves := ms } with ⟨hidle, e⟩ | ⟨htx, b, rest, hq, e⟩
  · refine ⟨fun b rest htx hq => ?_, fun _ => by rw [e]⟩
    rcases hidle with hoff | hempty
    · exact absurd (hoff.symm.trans htx) nofun
    · exact absurd (hempty.symm.trans hq) nofun
  · refine ⟨fun b' rest' _ hq' => ?_, fun hidle => ?_⟩
    · cases hq.symm.trans hq'
      rw [e]
    · rcases hidle with hoff | hempty
      · exact absurd (hoff.symm.trans htx) nofun
      · exact absurd (hempty.symm.trans hq) nofun

/-! ### The order of the bytes -/

/-- R197: nothing but the host's read takes a byte from the wire to the host, and none of the host's moves and
the environment's puts one on it. -/
theorem outside_d2h {m : Move} (hm : m ≠ .rx ∧ m ≠ .disp ∧ m ≠ .txd) (hread : m ≠ .hostRead) {s t : State}
    (h : runMove m s = .next t) : t.d2h = s.d2h := by
  obtain ⟨hrx, hdisp, htxd⟩ := hm
  cases m with
  | rx => exact absurd rfl hrx
  | disp => exact absurd rfl hdisp
  | txd => exact absurd rfl htxd
  | hostRead => exact absurd rfl hread
  | hostByte b =>
    cases h
    unfold hostByteTurn
    split <;> rfl
  | hostSend f =>
    simp only [runMove, hostSendTurn] at h
    split at h
    · cases h; rfl
    · split at h <;> cases h
      rfl
  | hostWrite =>
    cases h
    unfold hostWriteTurn
    split <;> rfl
  | hostFail =>
    cases h
    unfold hostFailTurn
    split <;> rfl
  | hostClose =>
    cases h
    unfold hostCloseTurn
    split <;> rfl
  | envButtons | envAccel | envTxReady => cases h; rfl

/-- Settles O39: the dispatcher adds at the end of the queue, the poller moves its head to the end of what is
sent, and the other moves leave both. -/
theorem responseBytesLeaveInOrder : Obligations.ResponseBytesLeaveInOrder := by
  intro m s t hread h
  by_cases hdisp : m = .disp
  · subst hdisp
    obtain ⟨hframe, -, p, hp⟩ := dispTurn_frame h
    refine ⟨p, ?_⟩
    rw [hp, hframe, List.append_assoc]
  by_cases htxd : m = .txd
  · subst htxd
    cases h
    refine ⟨[], ?_⟩
    rcases txdTurn_cases s with ⟨-, e⟩ | ⟨-, b, rest, hq, e⟩ <;> rw [e]
    · rw [List.append_nil]
    · simp [hq]
  by_cases hrx : m = .rx
  · subst hrx
    refine ⟨[], ?_⟩
    rw [List.append_nil]
    rcases rxTurn_cases s with ⟨-, e⟩ | ⟨-, b, rest, -, e⟩ <;> rw [runMove, e] at h
    · cases h; rfl
    · rw [(receive_frame h).1]
  · refine ⟨[], ?_⟩
    have hwire := outside_d2h ⟨hrx, hdisp, htxd⟩ hread h
    rw [List.append_nil, hwire, outside_frame ⟨hrx, hdisp, htxd⟩ h]

/-! ### The ring form -/

theorem ringWf_iff (r : Ring) : ringWf r = true ↔ r.rd < r.mem.length ∧ r.cnt ≤ r.mem.length := by
  simp [ringWf]

/-- R20: entry `i` of the sequence stands `i` cells after the read index. -/
def ringCell (r : Ring) (i : Nat) : Byte := r.mem.getD ((r.rd + i) % r.mem.length) 0#8

theorem ringSeq_eq (r : Ring) : ringSeq r = (List.range r.cnt).map (ringCell r) := rfl

/-- The cells of a ring's sequence are distinct. -/
theorem ring_index_ne {rd i n len : Nat} (hi : i < n) (hn : n < len) : (rd + i) % len ≠ (rd + n) % len := by
  intro h
  have hmod : i ≡ n [MOD len] := Nat.ModEq.add_left_cancel' rd h
  exact hi.ne (hmod.eq_of_lt_of_lt (hi.trans hn) hn)

/-- R172: a push to a ring with room appends. -/
theorem ringPush_of_room {r : Ring} (b : Byte) (hrd : r.rd < r.mem.length) (hroom : r.cnt < r.mem.length) :
    ∃ q, ringPush b r = some q ∧ ringWf q = true ∧ q.mem.length = r.mem.length ∧ ringSeq q = ringSeq r ++ [b] := by
  have hlen : 0 < r.mem.length := Nat.zero_lt_of_lt hrd
  refine ⟨_, if_neg hroom.ne, (ringWf_iff _).2 ?_, List.length_set, ?_⟩
  · rw [List.length_set]
    exact ⟨hrd, hroom⟩
  · rw [ringSeq_eq, ringSeq_eq, List.range_succ, List.map_append, List.map_singleton]
    congr 1
    · refine List.map_congr_left fun i hi => ?_
      have hne := ring_index_ne (rd := r.rd) (List.mem_range.1 hi) hroom
      simp [ringCell, List.getD_eq_getElem?_getD, List.getElem?_set_ne hne.symm]
    · simp [ringCell, List.getD_eq_getElem?_getD, Nat.mod_lt _ hlen]

/-- R172: a pop of a ring that is not empty gives the first byte. -/
theorem ringPop_of_pos {r : Ring} (hwf : ringWf r = true) (hpos : 0 < r.cnt) :
    ∃ b q, ringPop r = some (b, q) ∧ ringWf q = true ∧ q.mem.length = r.mem.length ∧ ringSeq r = b :: ringSeq q := by
  obtain ⟨hrd, hcnt⟩ := (ringWf_iff r).1 hwf
  obtain ⟨n, hn⟩ := Nat.exists_eq_add_one_of_ne_zero hpos.ne'
  refine ⟨_, _, if_neg hpos.ne', (ringWf_iff _).2 ⟨Nat.mod_lt _ (Nat.zero_lt_of_lt hrd), by simp; omega⟩, rfl, ?_⟩
  rw [ringSeq_eq, ringSeq_eq, hn, List.range_succ_eq_map, List.map_cons, List.map_map]
  congr 1
  · rw [ringCell, Nat.add_zero, Nat.mod_eq_of_lt hrd]
  · refine List.map_congr_left fun i _ => ?_
    simp [ringCell, Nat.add_assoc, Nat.add_comm 1 i]

/-- Settles O42: R162 and R164 in ring form. -/
theorem ringRefinesQueue : Obligations.RingRefinesQueue := by
  intro r hwf
  obtain ⟨hrd, -⟩ := (ringWf_iff r).1 hwf
  exact ⟨by simp [ringSeq_eq], fun _ hfull => if_pos hfull, fun b => ringPush_of_room b hrd,
    fun hempty => if_pos hempty, ringPop_of_pos hwf⟩

end Sys2Proof.Machine
end

section
/-! Liveness of what waits for the queue (43_response_queue.md R167, R169) in every run that keeps the premises of
70_reset_and_hazards.md R246. -/

namespace Sys2Proof.Machine

/-! ### Nothing is deferred for ever -/

/-- What a move of a run does to the queue while something waits for room in it: nothing is added, what the
poller sends is gone, and the dispatcher fails only where the queue is not empty. -/
structure Deferred (m : Nat → Move) (r : Nat → State) (k : Nat) : Prop where
  running : (r k).running = true
  noneAdded : (r (k + 1)).rq.length ≤ (r k).rq.length
  sent : m k = .txd → (r k).txReady = true → (r k).rq ≠ [] → (r (k + 1)).rq.length < (r k).rq.length
  full : m k = .disp → (r k).rq ≠ []

section
variable {m : Nat → Move} {r : Nat → State} {n : Nat}

theorem rq_length_antitone (hall : ∀ k, n ≤ k → Deferred m r k) {j k : Nat} (hj : n ≤ j) (hk : j ≤ k) :
    (r k).rq.length ≤ (r j).rq.length := by
  induction k, hk using Nat.le_induction with
  | base => exact le_rfl
  | succ k hk ih => exact (hall k (hj.trans hk)).noneAdded.trans ih

/-- While the channel keeps accepting, a queue to which nothing is added becomes empty. -/
theorem exists_rq_eq_nil (hchan : channelFair m r) (hall : ∀ k, n ≤ k → Deferred m r k) :
    ∃ k, n ≤ k ∧ (r k).rq = [] := by
  suffices h : ∀ len j, n ≤ j → (r j).rq.length ≤ len → ∃ k, n ≤ k ∧ (r k).rq = [] from h _ n le_rfl le_rfl
  intro len
  induction len with
  | zero => exact fun j hj hlen => ⟨j, hj, List.length_eq_zero_iff.1 (Nat.le_zero.1 hlen)⟩
  | succ len ih =>
    intro j hj hlen
    obtain ⟨k, hk, hempty | ⟨htxd, htx⟩⟩ := hchan j
    · exact ⟨k, hj.trans hk, hempty⟩
    by_cases hempty : (r k).rq = []
    · exact ⟨k, hj.trans hk, hempty⟩
    have hnk : n ≤ k := hj.trans hk
    have hless := (hall k hnk).sent htxd htx hempty
    have hkj := rq_length_antitone hall hj hk
    exact ih (k + 1) (hnk.trans (Nat.le_succ k)) (by omega)

/-- R246: where the dispatcher keeps taking steps and the channel keeps accepting bytes, nothing waits for room
for ever: the queue becomes empty and stays so until the dispatcher moves. -/
theorem not_deferred_forever (hdisp : dispatcherFair m r) (hchan : channelFair m r) :
    ¬∀ k, n ≤ k → Deferred m r k := by
  intro hall
  obtain ⟨j, hj, hempty⟩ := exists_rq_eq_nil hchan hall
  obtain ⟨k, hk, hended | hmove⟩ := hdisp j
  · exact absurd ((hall k (hj.trans hk)).running.symm.trans hended) nofun
  · have hlen := rq_length_antitone hall hj hk
    rw [hempty] at hlen
    exact (hall k (hj.trans hk)).full hmove (List.length_eq_zero_iff.1 (Nat.le_zero.1 hlen))

/-- What waits at `n`, and at every move goes on waiting or is served, is served, and waits until then. -/
theorem exists_served {Waits Served : Nat → Prop} (hdisp : dispatcherFair m r) (hchan : channelFair m r)
    (hn : Waits n) (hstep : ∀ k, n ≤ k → Waits k → Served k ∨ Deferred m r k ∧ Waits (k + 1)) :
    ∃ k, n ≤ k ∧ Served k ∧ (∀ j, n ≤ j → j ≤ k → Waits j) ∧ ∀ j, n ≤ j → j < k → ¬Served j := by
  have waits (k : Nat) (hk : n ≤ k) (hnot : ∀ j, n ≤ j → j < k → ¬Served j) : Waits k := by
    induction k, hk using Nat.le_induction with
    | base => exact hn
    | succ k hk ih =>
      have hwaits : Waits k := ih fun j hj hjk => hnot j hj (hjk.trans k.lt_succ_self)
      exact ((hstep k hk hwaits).resolve_left (hnot k hk k.lt_succ_self)).2
  have hserved : ∃ k, n ≤ k ∧ Served k := by
    by_contra hnone
    have hnot (k : Nat) (hk : n ≤ k) : ¬Served k := fun h => hnone ⟨k, hk, h⟩
    refine not_deferred_forever (n := n) hdisp hchan fun k hk => ?_
    exact ((hstep k hk (waits k hk fun j hj _ => hnot j hj)).resolve_left (hnot k hk)).1
  classical
  obtain ⟨hk, hfound⟩ := Nat.find_spec hserved
  have hfirst (j : Nat) (hj : n ≤ j) (hjk : j < Nat.find hserved) : ¬Served j :=
    fun h => Nat.find_min hserved hjk ⟨hj, h⟩
  exact ⟨_, hk, hfound, fun j hj hjk => waits j hj fun i hi hij => hfirst i hi (hij.trans_le hjk), hfirst⟩

end

/-! ### The owed Ready -/

/-- R169, R135: while Ready is owed a move leaves it owed with at most the head of the queue gone, or queues it
and clears the debt. -/
theorem runMove_of_owed {m : Move} {s t : State} (ho : s.readyOwed = true) (h : runMove m s = .next t) :
    (t.readyOwed = true ∧ (t.rq = s.rq ∨ ∃ b, s.rq = b :: t.rq)) ∨
    (t.readyOwed = false ∧ t.rq = s.rq ++ [0x78#8]) := by
  by_cases hdisp : m = .disp
  · subst hdisp
    rw [runMove] at h
    cases hr : s.running
    · rw [dispTurn_of_ended hr] at h
      cases h
      exact .inl ⟨ho, .inl rfl⟩
    · rw [dispTurn_of_owed hr ho] at h
      rcases execReady_cases s with ⟨-, e⟩ | ⟨-, e⟩
      · cases e.symm.trans h
        exact .inl ⟨ho, .inl rfl⟩
      · cases e.symm.trans h
        exact .inr ⟨rfl, rfl⟩
  · obtain ⟨hframe, hrq⟩ := runMove_frame_of_ne_disp hdisp h
    exact .inl ⟨by rw [hframe]; exact ho, hrq⟩

/-- What is true while the Ready owed at `n` waits: nothing but what was queued then is queued. -/
structure ReadyWaits (r : Nat → State) (n k : Nat) : Prop where
  running : (r k).running = true
  owed : (r k).readyOwed = true
  capacity : 8 ≤ (r k).cfg.rqCapacity
  queued : ∃ p, (r n).rq = p ++ (r k).rq

/-- R135: the dispatcher step at `k` queues the owed Ready. -/
def ReadyQueued (m : Nat → Move) (r : Nat → State) (k : Nat) : Prop :=
  m k = .disp ∧ (r (k + 1)).readyOwed = false ∧ (r (k + 1)).rq = (r k).rq ++ [0x78#8]

/-- R169: at every move the owed Ready goes on waiting or is queued. -/
theorem ReadyWaits.step {m : Nat → Move} {r : Nat → State} {n k : Nat} (hrun : IsRun m r)
    (hw : ReadyWaits r n k) : ReadyQueued m r k ∨ Deferred m r k ∧ ReadyWaits r n (k + 1) := by
  obtain ⟨hr, ho, hcap, p, hp⟩ := hw
  obtain ⟨hcfg, ⟨hr', ho', ⟨q, hq⟩, hsent, hfull⟩ | hqueued⟩ := owed_move hr ho (hrun k)
  · refine .inr ⟨⟨hr, by rw [hq, List.length_append]; omega, hsent, fun hm hempty => ?_⟩,
      hr', ho', hcfg ▸ hcap, p ++ q, by rw [List.append_assoc, ← hq, hp]⟩
    have hlen := hfull hm
    rw [hempty, List.length_nil] at hlen
    omega
  · exact .inl hqueued

/-- Settles O40: one move while Ready is owed, and that it does not wait for ever. -/
theorem owedReadyEntersQueueFirst : Obligations.OwedReadyEntersQueueFirst := by
  refine ⟨fun s t ho h => ?_, fun m r n hrun hdisp hchan hcap hr ho => ?_⟩
  · obtain ⟨ms, k, h⟩ := runMove_of_step h
    exact runMove_of_owed (s := { s with moves := ms, tick := k }) ho h
  · obtain ⟨k, hk, hqueued, hwaits, -⟩ :=
      exists_served hdisp hchan (Waits := ReadyWaits r n) ⟨hr, ho, hcap, [], rfl⟩ fun k _ hw => hw.step hrun
    exact ⟨k, hk, fun j hj hjk => ⟨(hwaits j hj hjk).owed, (hwaits j hj hjk).queued⟩, hqueued⟩

/-! ### A deferred command -/

/-- R143, R167: with the queue empty, a wire command in flight is answered whole. -/
theorem dispTurn_of_empty {s : State} (hr : s.running = true) (ho : s.readyOwed = false) (hc : s.ready = true)
    (ht : s.tag ≠ .putcolor) (hcap : 8 ≤ s.cfg.rqCapacity) (hempty : s.rq = []) :
    ∃ t, dispTurn s = .next t ∧ t.ready = false ∧ t.d2h = s.d2h ∧ t.rq = responseOf s := by
  obtain ⟨u, hu, ⟨hno, -⟩ | ⟨-, hready, hrq, -, hd2h, -⟩⟩ := exec_slot_wire ht
  · have hmax := responseOf_length_le s
    have hfree : rqFree s = s.cfg.rqCapacity := by simp [rqFree, hempty]
    omega
  · obtain ⟨xready, xrq, xd2h, -⟩ := exitCheck_same u
    refine ⟨exitCheck u, ?_, xready.trans hready, xd2h.trans hd2h, xrq.trans ?_⟩
    · rw [dispTurn_of_command hr ho hc, hu, mapNext_next]
    · rw [hrq, hempty, List.nil_append]

/-- R167: the queue drains while the channel accepts bytes, and the command is then answered. -/
theorem dispTurn_drain {s : State} {n : Nat} (hr : s.running = true) (ho : s.readyOwed = false)
    (hc : s.ready = true) (ht : s.tag ≠ .putcolor) (htx : s.txReady = true) (hcap : 8 ≤ s.cfg.rqCapacity)
    (hn : s.rq.length ≤ n) :
    ∃ t, dispTurn (drain n s) = .next t ∧ t.ready = false ∧ t.d2h = s.d2h ++ s.rq ∧ t.rq = responseOf s := by
  rw [drain_eq n s htx, List.drop_eq_nil_of_le hn, List.take_of_length_le hn]
  exact dispTurn_of_empty (s := { s with rq := [], d2h := s.d2h ++ s.rq }) hr ho hc ht hcap rfl

/-- What is true while the wire command in flight at `n` waits; a third colour component may have overwritten it. -/
structure CommandWaits (r : Nat → State) (n k : Nat) : Prop where
  owed : (r k).readyOwed = false
  ready : (r k).ready = true
  tag : (r k).tag = (r n).tag ∨ (r k).tag = .putcolor
  capacity : 8 ≤ (r k).cfg.rqCapacity

/-- R143, R184, R235: at `k` the waiting has an end: the session has ended, the command is overwritten, or the
dispatcher's step appends its response and consumes it. -/
def CommandSettled (m : Nat → Move) (r : Nat → State) (n k : Nat) : Prop :=
  (r k).running = false ∨ (r k).tag = .putcolor ∨
    ((r k).tag = (r n).tag ∧ m k = .disp ∧ (r (k + 1)).ready = false ∧
      (r (k + 1)).rq = (r k).rq ++ responseOf (r k))

/-- R167: at every move a wire command in flight goes on waiting or its waiting has an end. -/
theorem CommandWaits.step {m : Nat → Move} {r : Nat → State} {n k : Nat} (hrun : IsRun m r)
    (hw : CommandWaits r n k) : CommandSettled m r n k ∨ Deferred m r k ∧ CommandWaits r n (k + 1) := by
  obtain ⟨ho, hc, htag, hcap⟩ := hw
  by_cases ht : (r k).tag = .putcolor
  · exact .inl (.inr (.inl ht))
  cases hr : (r k).running
  · exact .inl (.inl hr)
  have htag : (r k).tag = (r n).tag := htag.resolve_right ht
  obtain ⟨hcfg, ho', ⟨hc', htag', hadded, hsent, hfull⟩ | hanswered⟩ := wire_move hr ho hc ht (hrun k)
  · refine .inr ⟨⟨hr, hadded, hsent, fun hm hempty => ?_⟩, ho', hc', htag ▸ htag', hcfg ▸ hcap⟩
    have hmax := responseOf_length_le (r k)
    have hdeferred := hfull hm
    rw [rqFree, hempty, List.length_nil] at hdeferred
    omega
  · exact .inl (.inr (.inr ⟨htag, hanswered⟩))

/-- Settles O41: the answer after the queue has drained, and that a command does not wait for ever. -/
theorem deferredCommandAnsweredAfterDrain : Obligations.DeferredCommandAnsweredAfterDrain := by
  refine ⟨fun s n hr ho hc ht htx hcap hn => dispTurn_drain hr ho hc ht htx hcap hn,
    fun m r n hrun hdisp hchan hcap ho hc ht => ?_⟩
  obtain ⟨k, hk, hsettled, hwaits, hbefore⟩ :=
    exists_served hdisp hchan (Waits := CommandWaits r n) ⟨ho, hc, .inl rfl, hcap⟩ fun k _ hw => hw.step hrun
  refine ⟨k, hk, fun j hj hjk => ⟨(hwaits j hj hjk.le).ready, ?_⟩, (hwaits k hk le_rfl).ready, hsettled⟩
  exact (hwaits j hj hjk.le).tag.resolve_right fun h => hbefore j hj hjk (.inr (.inl h))

end Sys2Proof.Machine
end

section
/-! The writing side of the Frame Sender (45_frame_sender.md): the whole frame is written (R195, R196), and what a
failure (R198) and a close (R200) do in each state of the sender. -/

namespace Sys2Proof.Machine

/-- R196: the last byte is written, and `send` reads. -/
theorem hostWriteTurn_of_last {s : State} {b : Byte} (h : s.sender = .writing [b]) :
    hostWriteTurn s = { s with h2d := s.h2d ++ [b], sender := .reading } := by
  simp [hostWriteTurn, h]

/-- R196: a byte before the last is written. -/
theorem hostWriteTurn_of_more {s : State} {b c : Byte} {rest : List Byte} (h : s.sender = .writing (b :: c :: rest)) :
    hostWriteTurn s = { s with h2d := s.h2d ++ [b], sender := .writing (c :: rest) } := by
  simp [hostWriteTurn, h]

/-- R195, R196: as many writes as there are bytes left write them all in order, and then `send` reads. -/
theorem hostWriteTurn_iterate {rest : List Byte} (hne : rest ≠ []) {s : State} (h : s.sender = .writing rest) :
    hostWriteTurn^[rest.length] s = { s with h2d := s.h2d ++ rest, sender := .reading } := by
  induction rest generalizing s with
  | nil => exact absurd rfl hne
  | cons b rest ih =>
    rw [List.length_cons, Function.iterate_succ_apply]
    cases rest with
    | nil => exact hostWriteTurn_of_last h
    | cons c rest =>
      rw [hostWriteTurn_of_more h, ih nofun rfl]
      simp

/-- Settles O47: the writes of the encoded frame, of which at least the preamble is to be written. -/
theorem sendWritesWholeFrame : Obligations.SendWritesWholeFrame := by
  intro f s hfits hopen hidle
  have hsend : hostSendTurn f s = .next { s with sender := .writing (encodeFrame f) } := by
    simp [hostSendTurn, hidle, hfits, hopen]
  exact ⟨_, hsend, hostWriteTurn_iterate (rest := encodeFrame f) nofun rfl⟩

/-- R198: a failure during a `send`. -/
theorem hostFailTurn_of_sending {s : State} (h : sending s = true) :
    hostFailTurn s = { s with sender := .finished .deviceOffline } := if_pos h

/-- Entry 24: a failure with no `send` in progress. -/
theorem hostFailTurn_of_not_sending {s : State} (h : sending s = false) : hostFailTurn s = s := by
  simp [hostFailTurn, h]

/-- R200: a close during a `send` flushes what is left of it and cancels it. -/
theorem hostCloseTurn_of_sending {s : State} (hopen : s.channelOpen = true) (h : sending s = true) :
    hostCloseTurn s =
      { s with h2d := s.h2d ++ unwritten s, channelOpen := false, sender := .finished .deviceOffline } := by
  simp [hostCloseTurn, hopen, h]

/-- R200: a close with no `send` in progress. -/
theorem hostCloseTurn_of_not_sending {s : State} (hopen : s.channelOpen = true) (h : sending s = false)
    (hnone : unwritten s = []) : hostCloseTurn s = { s with channelOpen := false } := by
  simp [hostCloseTurn, hopen, h, hnone]

/-- Settles O49: by the state of the sender. -/
theorem failureIsHostSideAndCloseFlushes : Obligations.FailureIsHostSideAndCloseFlushes := by
  refine fun s => ⟨fun rest h => ?_, fun h => ?_, fun h => ?_, fun hclosed => ?_⟩
  · have hsending : sending s = true := by rw [sending, h]
    have hrest : unwritten s = rest := by rw [unwritten, h]
    exact ⟨hostFailTurn_of_sending hsending, fun hopen => hrest ▸ hostCloseTurn_of_sending hopen hsending⟩
  · have hsending : sending s = true := by rw [sending, h]
    have hnone : unwritten s = [] := by rw [unwritten, h]
    refine ⟨hostFailTurn_of_sending hsending, fun hopen => ?_⟩
    rw [hostCloseTurn_of_sending hopen hsending, hnone, List.append_nil]
  · have hidle : sending s = false ∧ unwritten s = [] := by
      rcases h with h | ⟨r, h⟩ <;> simp [sending, unwritten, h]
    exact ⟨hostFailTurn_of_not_sending hidle.1, fun hopen => hostCloseTurn_of_not_sending hopen hidle.1 hidle.2⟩
  · simp [hostCloseTurn, hclosed]

end Sys2Proof.Machine
end
